-- ==== Sys2Proof/Word.lean ====
section
/-! DEFINITION. The word types of the libcgc AES-128 core (00_scope.md section 6.1, R7; 30_encoding.md R81). -/

namespace Sys2Proof

/-- A byte: 8 bits, bit 0 least significant (00_scope.md section 6.1). -/
abbrev Byte := BitVec 8

/-- A word: 32 bits (00_scope.md section 6.1). -/
abbrev Word := BitVec 32

/-- A block: 16 bytes on a 128-bit bus, byte `b[k]` in bits `[127-8k : 120-8k]`, so that the 32-digit hexadecimal
spelling read as one numeral is the value (00_scope.md R7). -/
abbrev Block := BitVec 128

/-- A command seen as one word: opcode in bits 135:128, operand in bits 127:0 (30_encoding.md R81). -/
abbrev CmdWord := BitVec 136

end Sys2Proof
end

