-- ==== Sys2Proof/Syntax.lean ====
section
/-! DEFINITION. The commands of the block: one constructor per row of spec/opcode_table.json (30_encoding.md R83). -/

namespace Sys2Proof

/-- A command the core can select (30_encoding.md R83 to R86). -/
inductive Instr where
  /-- `EXPANDKEY key`: all 128 operand bits are the master key (R84, R106). -/
  | expandkey (key : Block)
  /-- `ENCRYPT in`: all 128 operand bits are the input block (R85, R124). -/
  | encrypt (input : Block)
  /-- `RDRK n`: `reserved` is `operand[127:8]`, which must be zero, and `n` is `operand[7:0]`. The command is selected by
  its opcode alone (R86), so a malformed operand is kept here and refused by the command itself (R160, R202). -/
  | rdrk (reserved : BitVec 120) (n : Byte)
  deriving DecidableEq, Repr

end Sys2Proof
end

