-- ==== Sys2Proof/WellFormed.lean ====
section
/-! DEFINITION. Which commands are well formed (30_encoding.md R84, R85, R86). The machine gives the ill-formed ones their
meaning too: BADARG (60_exceptions.md R202). -/

namespace Sys2Proof

/-- The RDRK operand check: `operand[127:8] = 0` and the round number, an unsigned byte, at most 10 (R86, R202). -/
def rdrkOperandOk (reserved : BitVec 120) (n : Byte) : Bool :=
  reserved == 0 && decide (n.toNat ≤ 10)

/-- A well-formed command. Every key and every input block is legal (R84, R85, 93_implementation_defined.md U11). -/
def Instr.wellFormed (i : Instr) : Bool :=
  match i with
  | .expandkey _ => true
  | .encrypt _ => true
  | .rdrk reserved n => rdrkOperandOk reserved n

end Sys2Proof
end

