-- ==== Sys2Proof/Decode.lean ====
section
/-! DEFINITION. Decoding a command word, and the encoder (30_encoding.md R81 to R87; the words of 95_test_vectors.md V20). -/

namespace Sys2Proof

/-- Why a command word is no command. -/
inductive DecodeError where
  /-- A reserved opcode, `0x00` or `0x04` to `0xFF` (30_encoding.md R83, R87). The machine refuses it with BADCMD (R201). -/
  | reservedOpcode (op : Byte)
  deriving DecidableEq, Repr

/-- The field `op`, bits 135:128 of a command word (R81). -/
def cmdOp (c : CmdWord) : Byte := c.extractLsb' 128 8

/-- The field `operand`, bits 127:0 of a command word (R81). -/
def cmdOperand (c : CmdWord) : Block := c.extractLsb' 0 128

/-- The command word of `issue(op, operand)` (R80, R81). -/
def cmdWord (op : Byte) (operand : Block) : CmdWord := op ++ operand

/-- Bits 127:8 of an RDRK operand, reserved (R86). -/
def rdrkReserved (operand : Block) : BitVec 120 := operand.extractLsb' 8 120

/-- Bits 7:0 of an RDRK operand, the round number `n = b[15]` (R86, R89 (c)). -/
def rdrkRound (operand : Block) : Byte := operand.extractLsb' 0 8

/-- Decode order, step 2 (R90): the opcode alone selects the command (R83). -/
def decode (c : CmdWord) : Except DecodeError Instr :=
  if cmdOp c = 0x01 then .ok (.expandkey (cmdOperand c))
  else if cmdOp c = 0x02 then .ok (.encrypt (cmdOperand c))
  else if cmdOp c = 0x03 then .ok (.rdrk (rdrkReserved (cmdOperand c)) (rdrkRound (cmdOperand c)))
  else .error (.reservedOpcode (cmdOp c))

/-- The opcode of a command (R83). -/
def Instr.opcode (i : Instr) : Byte :=
  match i with
  | .expandkey _ => 0x01
  | .encrypt _ => 0x02
  | .rdrk _ _ => 0x03

/-- The operand of a command (R84, R85, R86). -/
def Instr.operand (i : Instr) : Block :=
  match i with
  | .expandkey key => key
  | .encrypt input => input
  | .rdrk reserved n => reserved ++ n

/-- The command word of a command (R81, R91). -/
def encode (i : Instr) : CmdWord := cmdWord i.opcode i.operand

/-- The command word whose lowest `nbits` bits are those of `w`, every bit above them 0, as the opcode table numbers
bits: one 136-bit number, bit 0 its least significant bit (log entry 7). -/
def tableWord (nbits w : Nat) : CmdWord := BitVec.ofNat 136 (w % 2 ^ nbits)

/-- The instruction the decoder reads from a table row's bits (log entry 7); none where it refuses. -/
def decodeTableWord (nbits w : Nat) : Option Instr :=
  match decode (tableWord nbits w) with
  | .ok i => some i
  | .error _ => none

end Sys2Proof
end

