-- ==== Sys2Proof/Machine/State.lean ====
section
/-! DEFINITION. The state of the block and its reset (10_state.md; 70_reset_and_hazards.md R230). An element that the spec
gives "no value" holds `none`, as 10_state.md R38 requires (log entry 1). -/

namespace Sys2Proof.Machine

/-- The state matrix `S`: four rows of four bytes, `S[r][c]` (10_state.md R30, 41_encrypt_block.md R128). -/
abbrev Grid := Vector (Vector Byte 4) 4

/-- A round key: four schedule words (10_state.md R21). -/
abbrev RoundKey := Vector Word 4

/-- A key schedule: the 44 words, all of them with a value (10_state.md R20). -/
abbrev Schedule := Vector Word 44

/-- The 2-bit field `ERRCODE` (10_state.md R27; 60_exceptions.md section 2). -/
inductive ErrCode where
  /-- 0: no error. -/
  | noError
  /-- 1: a reserved opcode was issued (60_exceptions.md R201). -/
  | badcmd
  /-- 2: RDRK had a malformed operand (R202). -/
  | badarg
  /-- 3: ENCRYPT or RDRK came before any key (R203). -/
  | nokey
  deriving DecidableEq, Repr

/-- A transaction of the host (30_encoding.md R80). -/
inductive Transaction where
  /-- The `reset` transaction (70_reset_and_hazards.md R230). -/
  | reset
  /-- `issue(op, operand)`, the command seen as one word (R81). -/
  | issue (cmd : CmdWord)
  deriving DecidableEq, Repr

/-- The architectural state (10_state.md section 1), the transient elements (R29 to R32), and the host's stream of
transactions still to come (20_memory.md R62, R64; log entry 3). -/
structure State where
  /-- The key schedule store `W[0..43]`, also the memory `RK` (R20, R50). -/
  w : Vector (Option Word) 44
  /-- `KVALID` (R22). -/
  kvalid : Bool
  /-- `DOUT` (R24). -/
  dout : Option Block
  /-- `DVALID` (R25). -/
  dvalid : Bool
  /-- `ERR` (R26). -/
  err : Bool
  /-- `ERRCODE` (R27). -/
  errcode : ErrCode
  /-- The captured command (R29). -/
  captured : Option CmdWord
  /-- The state matrix `S` (R30). -/
  matrix : Option Grid
  /-- The key expander's temporary `t` (R31). -/
  t : Option Word
  /-- `RND`, the round whose key the next AddRoundKey uses (R32). -/
  rnd : Option (Fin 11)
  /-- `KI`, the index of the schedule word being produced (R32). -/
  ki : Option (Fin 44)
  /-- The transactions the host has still to perform, the next one first; the host agent's, not the block's (log entry 3). -/
  port : List Transaction
  deriving DecidableEq, Repr

/-- Reasons for the machine to stop with a fault: none. The cipher raises nothing (60_exceptions.md R200), every access is
in range by construction (20_memory.md R58), and a refused command has an effect the spec gives, so it is a next state
(R204, R205; log entry 5). -/
inductive Fault where
  deriving DecidableEq, Repr

/-- Reasons for a step to have no meaning. -/
inductive Refusal where
  /-- Raised by an arm of `exec` for an instruction without a meaning yet; no arm raises it in this model. Safe: nothing
  can be proved of a next state. -/
  | notModelled (mnemonic : String)
  deriving DecidableEq, Repr

/-- The machine right after `reset` (10_state.md R37): the flags and `ERRCODE` 0, everything else without a value. -/
def State.reset : State where
  w := Vector.replicate 44 none
  kvalid := false
  dout := none
  dvalid := false
  err := false
  errcode := .noError
  captured := none
  matrix := none
  t := none
  rnd := none
  ki := none
  port := []

end Sys2Proof.Machine
end

