-- ==== Sys2Proof/Machine/Operands.lean ====
section
/-! DEFINITION. Byte order and operand assembly: bytes of blocks and words (00_scope.md R7, R8; 20_memory.md R55 to R57),
the key words of EXPANDKEY, and the load and store mappings of ENCRYPT (30_encoding.md R82, R89). -/

namespace Sys2Proof.Machine

/-- Byte `b[k]` of a block: bits `[127-8k : 120-8k]` (00_scope.md R7, 30_encoding.md R82). -/
def blockByte (b : Block) (k : Fin 16) : Byte := b.extractLsb' (120 - 8 * k.val) 8

/-- `byte_j(w) = (w >> (24-8j)) and 0xFF`, byte 0 the top one (00_scope.md R8). -/
def wordByte (w : Word) (j : Fin 4) : Byte := w.extractLsb' (24 - 8 * j.val) 8

/-- `word(a0,a1,a2,a3)`, `a0` most significant (00_scope.md R8). -/
def wordOfBytes (a0 a1 a2 a3 : Byte) : Word := a0 ++ a1 ++ a2 ++ a3

/-- The block of four words, the first in bits 127:96, each written most significant byte first (00_scope.md R7, R8). -/
def blockOfWords (w0 w1 w2 w3 : Word) : Block := w0 ++ w1 ++ w2 ++ w3

/-- The block with byte `f k` at linear offset `k` (00_scope.md R7). -/
def blockOfBytes (f : Fin 16 → Byte) : Block :=
  blockOfWords (wordOfBytes (f 0) (f 1) (f 2) (f 3)) (wordOfBytes (f 4) (f 5) (f 6) (f 7))
    (wordOfBytes (f 8) (f 9) (f 10) (f 11)) (wordOfBytes (f 12) (f 13) (f 14) (f 15))

/-- Offset `4c + r` of a block, the place of matrix element `S[r][c]` (20_memory.md R56). -/
def offset (r c : Fin 4) : Fin 16 := ⟨4 * c.val + r.val, by omega⟩

/-- The row of the matrix element at a linear offset (R56). -/
def offsetRow (k : Fin 16) : Fin 4 := ⟨k.val % 4, by omega⟩

/-- The column of the matrix element at a linear offset (R56). -/
def offsetCol (k : Fin 16) : Fin 4 := ⟨k.val / 4, by omega⟩

/-- Schedule word `i` of the key, i = 0..3: `word(key[4i], key[4i+1], key[4i+2], key[4i+3])` (R89 (a), 40_key_expansion.md R100). -/
def keyWord (key : Block) (i : Fin 4) : Word :=
  wordOfBytes (blockByte key (offset 0 i)) (blockByte key (offset 1 i)) (blockByte key (offset 2 i)) (blockByte key (offset 3 i))

/-- The matrix with byte `f r c` at row `r`, column `c`. -/
def Grid.ofFn (f : Fin 4 → Fin 4 → Byte) : Grid := Vector.ofFn fun r => Vector.ofFn fun c => f r c

/-- `S[r][c]` (10_state.md R30). -/
def Grid.at (g : Grid) (r c : Fin 4) : Byte := g[r][c]

/-- LoadState: `S[r][c] <- in[4c + r]` (41_encrypt_block.md R120). -/
def Grid.load (input : Block) : Grid := Grid.ofFn fun r c => blockByte input (offset r c)

/-- StoreState: `out[4c + r] <- S[r][c]` (41_encrypt_block.md R123; the transposing store is ruled out by 90_conflicts.md C1). -/
def Grid.store (g : Grid) : Block := blockOfBytes fun k => Grid.at g (offsetRow k) (offsetCol k)

/-- The index `4n + c` of word `c` of round key `n` (10_state.md R21). -/
def roundWord (n : Fin 11) (c : Fin 4) : Fin 44 := ⟨4 * n.val + c.val, by omega⟩

/-- A round key as a block: `RK(n)[4c + j] = byte_j(W[4n + c])` (10_state.md R21). -/
def RoundKey.toBlock (rk : RoundKey) : Block := blockOfBytes fun k => wordByte rk[offsetCol k] (offsetRow k)

end Sys2Proof.Machine
end

