-- ==== Sys2Proof/Machine/Field.lean ====
section
/-! DEFINITION. Arithmetic in GF(2^8) (42_round_transformations.md R140, R141) and the two read-only tables (20_memory.md
R50, R52, R54), with the algebraic definition of the S-box beside its listing (R53). -/

namespace Sys2Proof.Machine

/-- Multiplication by 2: shift left, drop the bit that leaves the byte, and if it was 1 XOR in `0x1B` (R140). -/
def xtime (a : Byte) : Byte := (a <<< 1) ^^^ (if a.getLsbD 7 then 0x1B else 0x00)

/-- `mul1(a) = a` (R141). -/
def mul1 (a : Byte) : Byte := a

/-- `mul2(a) = xtime(a)` (R141). -/
def mul2 (a : Byte) : Byte := xtime a

/-- `mul3(a) = xtime(a) xor a` (R141). -/
def mul3 (a : Byte) : Byte := xtime a ^^^ a

/-- The S-box listing: entry `h` is row `h` of the table of R52, its sixteen columns in order (20_memory.md R52; log entry 10). -/
def sboxRows : Vector Block 16 := #v[
  0x637c777bf26b6fc53001672bfed7ab76,
  0xca82c97dfa5947f0add4a2af9ca472c0,
  0xb7fd9326363ff7cc34a5e5f171d83115,
  0x04c723c31896059a071280e2eb27b275,
  0x09832c1a1b6e5aa0523bd6b329e32f84,
  0x53d100ed20fcb15b6acbbe394a4c58cf,
  0xd0efaafb434d338545f9027f503c9fa8,
  0x51a3408f929d38f5bcb6da2110fff3d2,
  0xcd0c13ec5f974417c4a77e3d645d1973,
  0x60814fdc222a908846eeb814de5e0bdb,
  0xe0323a0a4906245cc2d3ac629195e479,
  0xe7c8376d8dd54ea96c56f4ea657aae08,
  0xba78252e1ca6b4c6e8dd741f4bbd8b8a,
  0x703eb5664803f60e613557b986c11d9e,
  0xe1f8981169d98e949b1e87e9ce5528df,
  0x8ca1890dbfe6426841992d0fb054bb16]

/-- The high nibble `a[7:4]` of an S-box index, its row (R52). -/
def sboxRow (a : Byte) : Fin 16 := ⟨a.toNat / 16, by omega⟩

/-- The low nibble `a[3:0]` of an S-box index, its column (R52). -/
def sboxCol (a : Byte) : Fin 16 := ⟨a.toNat % 16, by omega⟩

/-- `SBOX[a]`, a read of the S-box ROM (R50, R52). -/
def sbox (a : Byte) : Byte := blockByte sboxRows[sboxRow a] (sboxCol a)

/-- The round-constant ROM: entry `k` is `RCON[k+1]`, k = 0..9. There is no `RCON[0]` and no index above 10 (R50, R54; log entry 10). -/
def rconTable : Vector Byte 10 := #v[0x01, 0x02, 0x04, 0x08, 0x10, 0x20, 0x40, 0x80, 0x1b, 0x36]

/-- `RCON[k+1]`, a read of the round-constant ROM (R54). -/
def rcon (k : Fin 10) : Byte := rconTable[k]

/-- The product of `a` and the polynomial whose coefficients, constant term first, are `bits`, modulo `0x11B`: the
field multiplication that R53's inverse refers to. It is no part of the datapath (R141). -/
def gfMulBits (a : Byte) (bits : List Bool) : Byte :=
  match bits with
  | [] => 0
  | b :: rest => (if b then a else 0) ^^^ gfMulBits (xtime a) rest

/-- Multiplication in GF(2^8) modulo `0x11B` (00_scope.md R5). -/
def gfMul (a b : Byte) : Byte := gfMulBits a ((List.range 8).map fun i => b.getLsbD i)

/-- The byte `a` raised to a power in GF(2^8). -/
def gfPow (a : Byte) (n : Nat) : Byte :=
  match n with
  | 0 => 1
  | m + 1 => gfMul a (gfPow a m)

/-- The multiplicative inverse of R53, 0 when `a = 0`: in a field of 256 elements it is `a^254`. -/
def gfInv (a : Byte) : Byte := gfPow a 254

/-- The algebraic definition of `SBOX[a]`: the inverse, then the affine map with constant `0x63` (R53). -/
def sboxAlgebraic (a : Byte) : Byte :=
  gfInv a ^^^ (gfInv a).rotateLeft 1 ^^^ (gfInv a).rotateLeft 2 ^^^ (gfInv a).rotateLeft 3 ^^^ (gfInv a).rotateLeft 4 ^^^ 0x63

end Sys2Proof.Machine
end

