-- ==== Sys2Proof/Machine/KeySchedule.lean ====
section
/-! DEFINITION. Key expansion as a function: `KeyExpansion(key)` (40_key_expansion.md R100 to R105). -/

namespace Sys2Proof.Machine

/-- `RotWord(t) = rotl32(t, 8)` (R102). -/
def rotWord (t : Word) : Word := t.rotateLeft 8

/-- `SubWord(t)`: every byte through the S-box, in its place (R103). -/
def subWord (t : Word) : Word :=
  wordOfBytes (sbox (wordByte t 0)) (sbox (wordByte t 1)) (sbox (wordByte t 2)) (sbox (wordByte t 3))

/-- `t xor (zext_32(RCON[k+1]) << 24)`: the constant goes into the top byte (R101, R104). -/
def addRcon (k : Fin 10) (t : Word) : Word := t ^^^ ((rcon k).zeroExtend 32 <<< 24)

/-- The ROM entry of the group of word `i`: `RCON[i/4]`, i = 4, 8, .., 40 (R104). -/
def rconIndex (i : Fin 44) : Fin 10 := ⟨i.val / 4 - 1, by omega⟩

/-- The index `i-1` (R101). -/
def previous (i : Fin 44) : Fin 44 := ⟨i.val - 1, by omega⟩

/-- The index `i-4` (R101). -/
def fourBack (i : Fin 44) : Fin 44 := ⟨i.val - 4, by omega⟩

/-- The previous word, transformed when `i mod 4 = 0`: rotate, substitute, constant, in that order (R101; 90_conflicts.md C3). -/
def expandTemp (i : Fin 44) (t : Word) : Word :=
  if i.val % 4 = 0 then addRcon (rconIndex i) (subWord (rotWord t)) else t

/-- The production of word `i`: `W[i] <- W[i-4] xor t` (R101). -/
def scheduleStep (w : Schedule) (i : Fin 44) : Schedule :=
  w.set i (w[fourBack i] ^^^ expandTemp i w[previous i])

/-- The first four words are the key (R100). The zeros in the other forty places are read by no step: `scheduleStep`
writes every place from 4 up, in increasing order, before a later step reads it. -/
def initialSchedule (key : Block) : Schedule :=
  (((Vector.replicate 44 (0 : Word)).set 0 (keyWord key 0)).set 1 (keyWord key 1)).set 2 (keyWord key 2) |>.set 3 (keyWord key 3)

/-- The indices `i = 4 .. 43`, in that order (R101). -/
def scheduleIndices : List (Fin 44) := (List.finRange 44).drop 4

/-- `KeyExpansion(key)`: 44 words from 16 bytes (R105). -/
def keyExpansion (key : Block) : Schedule := scheduleIndices.foldl scheduleStep (initialSchedule key)

/-- Round key `n` of a schedule: `W[4n], W[4n+1], W[4n+2], W[4n+3]` (10_state.md R21). -/
def roundKey (w : Schedule) (n : Fin 11) : RoundKey :=
  #v[w[roundWord n 0], w[roundWord n 1], w[roundWord n 2], w[roundWord n 3]]

/-- The function `g_n` of R107, with `k = n - 1`: `SubWord(RotWord(t)) xor (RCON[n] << 24)`. -/
def groupTransform (k : Fin 10) (t : Word) : Word := addRcon k (subWord (rotWord t))

end Sys2Proof.Machine
end

