-- ==== Sys2Proof/Machine/Cipher.lean ====
section
/-! DEFINITION. The four round transformations (42_round_transformations.md R143 to R146), their block form (R148), and
`Cipher(in, W)` as a function (41_encrypt_block.md R120 to R123). -/

namespace Sys2Proof.Machine

/-- SubBytes: `S'[r][c] <- SBOX[S[r][c]]` (R143). -/
def Grid.subBytes (g : Grid) : Grid := Grid.ofFn fun r c => sbox (Grid.at g r c)

/-- ShiftRows: `S'[r][c] <- S[r][(c + r) mod 4]` (R144; addition in `Fin 4` is modulo 4). -/
def Grid.shiftRows (g : Grid) : Grid := Grid.ofFn fun r c => Grid.at g r (c + r)

/-- Row `r` of the column that MixColumns makes of `[a, b, cc, d]` (R145). -/
def mixByte (r : Fin 4) (a b cc d : Byte) : Byte :=
  match r with
  | 0 => mul2 a ^^^ mul3 b ^^^ cc ^^^ d
  | 1 => a ^^^ mul2 b ^^^ mul3 cc ^^^ d
  | 2 => a ^^^ b ^^^ mul2 cc ^^^ mul3 d
  | 3 => mul3 a ^^^ b ^^^ cc ^^^ mul2 d

/-- MixColumns: each column, read from row 0 down to row 3 (R145). -/
def Grid.mixColumns (g : Grid) : Grid :=
  Grid.ofFn fun r c => mixByte r (Grid.at g 0 c) (Grid.at g 1 c) (Grid.at g 2 c) (Grid.at g 3 c)

/-- AddRoundKey: `S'[r][c] <- S[r][c] xor byte_r(W[4n + c])`, the round key given (R146; 90_conflicts.md C2). -/
def Grid.addRoundKey (rk : RoundKey) (g : Grid) : Grid := Grid.ofFn fun r c => Grid.at g r c ^^^ wordByte rk[c] r

/-- Rounds 1 to 9: SubBytes, ShiftRows, MixColumns, AddRoundKey(n) (R121). -/
def cipherRound (w : Schedule) (g : Grid) (n : Fin 11) : Grid :=
  Grid.addRoundKey (roundKey w n) (Grid.mixColumns (Grid.shiftRows (Grid.subBytes g)))

/-- The final round, without MixColumns (R121). -/
def finalRound (w : Schedule) (g : Grid) : Grid :=
  Grid.addRoundKey (roundKey w 10) (Grid.shiftRows (Grid.subBytes g))

/-- The round sequence on the matrix (R121). -/
def cipherGrid (w : Schedule) (g : Grid) : Grid :=
  finalRound w (([1, 2, 3, 4, 5, 6, 7, 8, 9] : List (Fin 11)).foldl (cipherRound w) (Grid.addRoundKey (roundKey w 0) g))

/-- `Cipher(in, W)`: LoadState, the round sequence, StoreState (R122). -/
def cipher (input : Block) (w : Schedule) : Block := Grid.store (cipherGrid w (Grid.load input))

/-- SubBytes on a 16-byte vector: `s'[k] = SBOX[s[k]]` (R148). -/
def blockSubBytes (s : Block) : Block := blockOfBytes fun k => sbox (blockByte s k)

/-- ShiftRows on a 16-byte vector: `s'[4c + r] = s[4((c + r) mod 4) + r]` (R148). -/
def blockShiftRows (s : Block) : Block :=
  blockOfBytes fun k => blockByte s (offset (offsetRow k) (offsetCol k + offsetRow k))

/-- MixColumns on a 16-byte vector: R145 applied to `(s[4c], s[4c+1], s[4c+2], s[4c+3])` (R148). -/
def blockMixColumns (s : Block) : Block :=
  blockOfBytes fun k => mixByte (offsetRow k) (blockByte s (offset 0 (offsetCol k))) (blockByte s (offset 1 (offsetCol k)))
    (blockByte s (offset 2 (offsetCol k))) (blockByte s (offset 3 (offsetCol k)))

end Sys2Proof.Machine
end

