-- ==== Sys2Proof/Machine/Ops.lean ====
section
/-! DEFINITION. The named operations on the state: one setter per element, reads of the schedule store, the refusal of a
command (60_exceptions.md R204, R205) and its only exit, `reset` (70_reset_and_hazards.md R230), and the checks of the
decode order (30_encoding.md R90). -/

namespace Sys2Proof.Machine

/-- Write the schedule store as a whole (10_state.md R20). -/
def State.setW (s : State) (v : Vector (Option Word) 44) : State := { s with w := v }

/-- Write `KVALID` (R22). -/
def State.setKvalid (s : State) (v : Bool) : State := { s with kvalid := v }

/-- Write `DOUT` (R24). -/
def State.setDout (s : State) (v : Option Block) : State := { s with dout := v }

/-- Write `DVALID` (R25). -/
def State.setDvalid (s : State) (v : Bool) : State := { s with dvalid := v }

/-- Set `ERR` and write `ERRCODE` (R26, R27). -/
def State.setError (s : State) (cause : ErrCode) : State := { s with err := true, errcode := cause }

/-- Write the captured command (R29). -/
def State.setCaptured (s : State) (v : Option CmdWord) : State := { s with captured := v }

/-- Write the state matrix `S` (R30). -/
def State.setMatrix (s : State) (v : Option Grid) : State := { s with matrix := v }

/-- Write `t` (R31). -/
def State.setT (s : State) (v : Option Word) : State := { s with t := v }

/-- Write `RND` (R32). -/
def State.setRnd (s : State) (v : Option (Fin 11)) : State := { s with rnd := v }

/-- Write `KI` (R32). -/
def State.setKi (s : State) (v : Option (Fin 44)) : State := { s with ki := v }

/-- Write the host's stream of coming transactions (log entry 3). -/
def State.setPort (s : State) (v : List Transaction) : State := { s with port := v }

/-- `W[i]`, a read of the round-key store; no value where the word has none (00_scope.md 6.3, 10_state.md R38). -/
def State.readWord (s : State) (i : Fin 44) : Option Word := s.w[i]

/-- `W[i] <- v` (00_scope.md 6.3). A value computed from an element without a value is no value (log entry 2). -/
def State.writeWord (s : State) (i : Fin 44) (v : Option Word) : State := s.setW (s.w.set i v)

/-- Four values as a round key; no value when one of them has none (log entry 2). -/
def roundKeyOfWords (w0 w1 w2 w3 : Option Word) : Option RoundKey :=
  match w0, w1, w2, w3 with
  | some a, some b, some c, some d => some #v[a, b, c, d]
  | _, _, _, _ => none

/-- Round key `n` read from the store, one word at a time (10_state.md R21; 20_memory.md R59). -/
def State.readRoundKey (s : State) (n : Fin 11) : Option RoundKey :=
  roundKeyOfWords (s.readWord (roundWord n 0)) (s.readWord (roundWord n 1)) (s.readWord (roundWord n 2)) (s.readWord (roundWord n 3))

/-- `DOUT <- v` and `DVALID <- 1`, the commit of ENCRYPT and RDRK (R24, R25, R62). -/
def State.writeResult (s : State) (v : Option Block) : State := (s.setDout v).setDvalid true

/-- `raise X(code)`: with `ERR = 0` it sets `ERR` and writes `ERRCODE`, and nothing else changes (60_exceptions.md R204);
with `ERR = 1` nothing at all changes (R205). This is the block's one trap-like mechanism. -/
def State.refuse (s : State) (cause : ErrCode) : State := if s.err then s else s.setError cause

/-- The `reset` transaction: the whole effect is the reset state (70_reset_and_hazards.md R230, 10_state.md R37). It is the
only exit from a refusal (60_exceptions.md R209). The host's coming transactions are not the block's and stay. -/
def State.resetBlock (s : State) : State := State.reset.setPort s.port

/-- Decode order, step 1: while `ERR = 1` a command changes nothing (30_encoding.md R90, 60_exceptions.md R205). -/
def State.unlessErr (s : State) (command : State → State) : State := if s.err then s else command s

/-- Decode order, step 4: without a key the command is refused with NOKEY (30_encoding.md R90, 60_exceptions.md R203). -/
def State.withKey (s : State) (command : State → State) : State := if s.kvalid then command s else s.refuse .nokey

/-- Apply a state change to the next state of an outcome; a stop stays as it is. -/
def onNext (f : State → State) (o : Host.Outcome State Fault Refusal) : Host.Outcome State Fault Refusal :=
  match o with
  | .next s => .next (f s)
  | .fault r => .fault r
  | .refused r => .refused r

end Sys2Proof.Machine
end

