-- ==== Sys2Proof/Machine/Flags.lean ====
section
/-! DEFINITION. The flags and the host's view of the block: `STATUS` (10_state.md R28) and `DOUT` (R24, 43_system_commands.md
R161). There are no arithmetic condition codes (10_state.md R35). -/

namespace Sys2Proof.Machine

/-- The 2-bit code of `ERRCODE` (10_state.md R27; 60_exceptions.md section 2). -/
def ErrCode.code (e : ErrCode) : BitVec 2 :=
  match e with
  | .noError => 0
  | .badcmd => 1
  | .badarg => 2
  | .nokey => 3

/-- `STATUS`: bits 7:5 zero, 4:3 `ERRCODE`, 2 `ERR`, 1 `DVALID`, 0 `KVALID` (10_state.md R28). -/
def State.status (s : State) : Byte :=
  (0 : BitVec 3) ++ s.errcode.code ++ BitVec.ofBool s.err ++ BitVec.ofBool s.dvalid ++ BitVec.ofBool s.kvalid

/-- What the host may rely on when it samples `DOUT`: its value while `DVALID = 1`, no value otherwise (10_state.md R25, R38;
43_system_commands.md R161; log entry 15). -/
def State.observeDout (s : State) : Option Block := if s.dvalid then s.dout else none

end Sys2Proof.Machine
end

