-- ==== Sys2Proof/Machine/EncryptPipeline.lean ====
section
/-! DEFINITION. The encryption pipeline unit EP and its command ENCRYPT (41_encrypt_block.md), as the 42 steps of R125 on the
state matrix `S` (10_state.md R30) and the round counter `RND` (R32). -/

namespace Sys2Proof.Machine

/-- A step of the encryption pipeline (R125). -/
inductive EpStep where
  /-- LoadState (R120). -/
  | loadState
  /-- AddRoundKey of the round that `RND` names (42_round_transformations.md R146). -/
  | addRoundKey
  /-- SubBytes (R143). -/
  | subBytes
  /-- ShiftRows (R144). -/
  | shiftRows
  /-- MixColumns (R145). -/
  | mixColumns
  /-- StoreState and the commit of `DOUT` and `DVALID` (R123, R125). -/
  | storeState
  deriving DecidableEq, Repr

/-- The round after `RND`; after round 10 there is none (10_state.md R32; log entry 9). -/
def nextRnd (n : Fin 11) : Option (Fin 11) := if h : n.val + 1 < 11 then some ⟨n.val + 1, h⟩ else none

/-- AddRoundKey on values; no value when the matrix or the round key has none (log entry 2). -/
def addRoundKeyValues (rk : Option RoundKey) (g : Option Grid) : Option Grid :=
  match rk, g with
  | some k, some m => some (Grid.addRoundKey k m)
  | _, _ => none

/-- One step of the pipeline; `input` is the captured operand (10_state.md R29). -/
def State.epStep (input : Block) (s : State) (step : EpStep) : State :=
  match step with
  | .loadState => (s.setMatrix (some (Grid.load input))).setRnd (some 0)
  | .addRoundKey =>
    (s.setMatrix (addRoundKeyValues (s.rnd.bind s.readRoundKey) s.matrix)).setRnd (s.rnd.bind nextRnd)
  | .subBytes => s.setMatrix (s.matrix.map Grid.subBytes)
  | .shiftRows => s.setMatrix (s.matrix.map Grid.shiftRows)
  | .mixColumns => s.setMatrix (s.matrix.map Grid.mixColumns)
  | .storeState => ((s.writeResult (s.matrix.map Grid.store)).setMatrix none).setRnd none

/-- One of the nine repeated rounds (R121). -/
def epRound : List EpStep := [.subBytes, .shiftRows, .mixColumns, .addRoundKey]

/-- The round without MixColumns, and the store (R121, R125). -/
def epFinish : List EpStep := [.subBytes, .shiftRows, .addRoundKey, .storeState]

/-- The 42 steps of an ENCRYPT, in order (R125). -/
def epProgram : List EpStep := [.loadState, .addRoundKey] ++ (List.replicate 9 epRound).flatten ++ epFinish

/-- ENCRYPT accepted: the 42 steps; after the last one `S` and `RND` have no value again (R123, R124). -/
def State.epRun (s : State) (input : Block) : State := epProgram.foldl (State.epStep input) s

/-- `ENCRYPT in` (R124): refused with NOKEY when `KVALID = 0`. -/
def execEncrypt (input : Block) (s : State) : Host.Outcome State Fault Refusal :=
  .next (s.unlessErr fun s => s.withKey fun s => s.epRun input)

end Sys2Proof.Machine
end

