-- ==== Sys2Proof/Machine/KeyExpander.lean ====
section
/-! DEFINITION. The key expander unit KX and its command EXPANDKEY (40_key_expansion.md), step by step on the state, with
the temporary `t` (10_state.md R31) and the index `KI` (R32). -/

namespace Sys2Proof.Machine

/-- The XOR of two values; no value when one of them has none (log entry 2). -/
def xorValues (a b : Option Word) : Option Word :=
  match a, b with
  | some x, some y => some (x ^^^ y)
  | _, _ => none

/-- The index after `KI`; after 43 there is none (R32; log entry 9). -/
def nextKi (i : Fin 44) : Option (Fin 44) := if h : i.val + 1 < 44 then some ⟨i.val + 1, h⟩ else none

/-- `W[0..3]` are written from the key (R100) and `KI` becomes 4, the first index of R101. -/
def State.kxLoadKey (s : State) (key : Block) : State :=
  ((((s.writeWord 0 (some (keyWord key 0))).writeWord 1 (some (keyWord key 1))).writeWord 2
    (some (keyWord key 2))).writeWord 3 (some (keyWord key 3))).setKi (some 4)

/-- The three transformations of `t` for `i mod 4 = 0`: RotWord, SubWord, the round constant (R101 to R104). -/
def State.kxTransform (s : State) (i : Fin 44) : State :=
  ((s.setT (s.t.map rotWord)).setT ((s.t.map rotWord).map subWord)).setT
    (((s.t.map rotWord).map subWord).map (addRcon (rconIndex i)))

/-- The body of the loop for word `i`: `t <- W[i-1]`, transformed when `i mod 4 = 0`; `W[i] <- W[i-4] xor t` (R101). -/
def State.kxWord (s : State) (i : Fin 44) : State :=
  let s1 := s.setT (s.readWord (previous i))
  let s2 := if i.val % 4 = 0 then s1.kxTransform i else s1
  s2.writeWord i (xorValues (s2.readWord (fourBack i)) s2.t)

/-- One turn of the loop: the word `KI` names is produced and `KI` advances (R32, R101). -/
def State.kxStep (s : State) : State :=
  match s.ki with
  | none => s
  | some i => (s.kxWord i).setKi (nextKi i)

/-- `n` turns of the loop. -/
def State.kxLoop (s : State) (n : Nat) : State :=
  match n with
  | 0 => s
  | m + 1 => s.kxStep.kxLoop m

/-- EXPANDKEY accepted: all 44 words are produced, `KVALID <- 1`, and `t` and `KI` lose their values (R106; 10_state.md R31, R32). -/
def State.kxRun (s : State) (key : Block) : State :=
  ((((s.kxLoadKey key).kxLoop 40).setKvalid true).setT none).setKi none

/-- `EXPANDKEY key` (R106). It is refused only while `ERR = 1`. -/
def execExpandkey (key : Block) (s : State) : Host.Outcome State Fault Refusal :=
  .next (s.unlessErr fun s => s.kxRun key)

end Sys2Proof.Machine
end

