-- ==== Sys2Proof/Machine/System.lean ====
section
/-! DEFINITION. The system command RDRK (43_system_commands.md R160). -/

namespace Sys2Proof.Machine

/-- The round a round number names; none when the number exceeds 10 (60_exceptions.md R202). -/
def roundOfByte (n : Byte) : Option (Fin 11) := if h : n.toNat < 11 then some ⟨n.toNat, h⟩ else none

/-- RDRK accepted: round key `n` goes to `DOUT`, each word most significant byte first, and `DVALID <- 1` (R160). -/
def State.rdrkRun (s : State) (n : Fin 11) : State := s.writeResult ((s.readRoundKey n).map RoundKey.toBlock)

/-- Decode order, steps 3 and 4, for RDRK: BADARG before NOKEY (30_encoding.md R90, 60_exceptions.md R206). -/
def State.rdrkChecked (s : State) (reserved : BitVec 120) (n : Byte) : State :=
  match roundOfByte n with
  | none => s.refuse .badarg
  | some r => if rdrkOperandOk reserved n then s.withKey fun s => s.rdrkRun r else s.refuse .badarg

/-- `RDRK n` (R160). -/
def execRdrk (reserved : BitVec 120) (n : Byte) (s : State) : Host.Outcome State Fault Refusal :=
  .next (s.unlessErr fun s => s.rdrkChecked reserved n)

end Sys2Proof.Machine
end

