-- ==== Sys2Proof/Machine/Dispatch.lean ====
section
/-! DEFINITION. The meaning of every command: one arm per constructor of Instr (30_encoding.md R83). -/

namespace Sys2Proof.Machine

def exec (i : Instr) (s : State) : Host.Outcome State Fault Refusal :=
  match i with
  | .expandkey key => Sys2Proof.Machine.execExpandkey key s
  | .encrypt input => Sys2Proof.Machine.execEncrypt input s
  | .rdrk reserved n => Sys2Proof.Machine.execRdrk reserved n s

end Sys2Proof.Machine
end

