-- ==== Sys2Proof/Machine/Transactions.lean ====
section
/-! DEFINITION. The two kinds of transaction (30_encoding.md R80): `reset`, and `issue`, which captures the command,
decodes it in the order of R90, executes or refuses it, and drops the captured copy (10_state.md R29). -/

namespace Sys2Proof.Machine

/-- Decode and execute a command word: a reserved opcode is refused with BADCMD (60_exceptions.md R201), which, like every
refusal, changes nothing while `ERR = 1` (R205, R206). -/
def runCommand (c : CmdWord) (s : State) : Host.Outcome State Fault Refusal :=
  match decode c with
  | .ok i => exec i s
  | .error (.reservedOpcode _) => .next (s.refuse .badcmd)

/-- Run the captured copy of the command, which is all that the core reads (10_state.md R29). -/
def runCaptured (s : State) : Host.Outcome State Fault Refusal :=
  match s.captured with
  | none => .next s
  | some c => runCommand c s

/-- The captured copy has no value after the command ends (10_state.md R29). -/
def State.endCommand (s : State) : State := s.setCaptured none

/-- `issue(op, operand)` (R80). -/
def issue (c : CmdWord) (s : State) : Host.Outcome State Fault Refusal :=
  onNext State.endCommand (runCaptured (s.setCaptured (some c)))

/-- One transaction of the host, whole (R80; 20_memory.md R62). -/
def perform (tr : Transaction) (s : State) : Host.Outcome State Fault Refusal :=
  match tr with
  | .reset => .next s.resetBlock
  | .issue c => issue c s

/-- Take the next transaction of the host's stream and perform it; when there is none the block holds its state
(00_scope.md R10, 70_reset_and_hazards.md R233; log entry 3). -/
def performNext (s : State) : Host.Outcome State Fault Refusal :=
  match s.port with
  | [] => .next s
  | tr :: rest => perform tr (s.setPort rest)

/-- Present a transaction as the host's next one, before those already to come (log entry 3). -/
def State.presentNext (s : State) (tr : Transaction) : State := s.setPort (tr :: s.port)

end Sys2Proof.Machine
end

