-- ==== Sys2Proof/Machine/Step.lean ====
section
/-! DEFINITION. One step of the machine is one transaction of the host (00_scope.md R9). -/

namespace Sys2Proof.Machine

/-- Perform the next transaction (00_scope.md R9; 20_memory.md R62). -/
def step (s : State) : Host.Outcome State Fault Refusal := performNext s

/-- The state with an instruction, its bits numbered as the opcode table numbers them, as the host's next transaction
(log entries 3 and 7). -/
def State.withFetchWord (s : State) (nbits w : Nat) : State := s.presentNext (.issue (tableWord nbits w))

end Sys2Proof.Machine
end

