-- ==== Sys2Proof/Config.lean ====
section
/-! DEFINITION. What an implementation fixes. The cipher parameters are constants (00_scope.md R4). The block's open
parameters (R6: PORT_BINDING, LAT_EXPANDKEY, LAT_ENCRYPT, LAT_RDRK, DATAPATH_SHAPE) are ignored, as R6 allows: "No rule
of the spec depends on the value of any of them" (log entry 12). The reference client's open parameters (R6, 44_reference_client.md,
92_eei_decisions.md D25) are a record that the client's functions take as an argument (log entry 14). -/

namespace Sys2Proof.Config

/-- Key words `Nk` (00_scope.md R4). -/
def nk : Nat := 4

/-- Block columns `Nb` (00_scope.md R4). -/
def nb : Nat := 4

/-- Rounds `Nr` (00_scope.md R4). -/
def nr : Nat := 10

/-- The order in which the client's host stores the bytes of a number (92_eei_decisions.md D25). -/
inductive ByteOrder where
  | little
  | big
  deriving DecidableEq, Repr

/-- The open parameters of the reference client, outside the block: TIME_BYTES, HOST_BYTE_ORDER, FLAG_PAGE_BASE and
FLAG_PAGE_SIZE (44_reference_client.md R174, R192; 92_eei_decisions.md D25). -/
structure ClientParams where
  timeBytes : Nat
  hostByteOrder : ByteOrder
  flagPageBase : Nat
  flagPageSize : Nat
  deriving DecidableEq, Repr

end Sys2Proof.Config
end

