-- ==== Sys2Proof/Machine/Client.lean ====
section
/-! DEFINITION. The reference client, outside the block (44_reference_client.md): the Generator and the
FlagPageInitializer, which drive the block with EXPANDKEY and ENCRYPT only (R187). Its registers are no state of the
block ("Nothing below adds state, commands or errors to the block"). Log entry 14. -/

namespace Sys2Proof.Machine

/-- The Generator's three registers (R171); the key schedule is the block's `W`. -/
structure Generator where
  v : Block
  dt : Block
  prevRand : Block
  deriving DecidableEq, Repr

/-- The life of the process-wide Generator (R172, R186). -/
inductive Client where
  /-- Not used yet: the first use creates it (R172). -/
  | fresh
  /-- Initialised, and no `generate` of it has failed. -/
  | ready (g : Generator)
  /-- A `generate` of it failed. What its registers hold is determined (R180; 90_conflicts.md C5), but it is not to be used
  again (R186). -/
  | spent (g : Generator)
  deriving DecidableEq, Repr

/-- The document's error kinds (R189), and the client's own answer when the block refuses a command, which in the client's
use does not happen (R187; log entry 14). -/
inductive ClientError where
  | hostIO (code : Int)
  | selfCollision
  | initialization
  | blockRefused
  deriving DecidableEq, Repr

/-- The default key, ASCII "0123456789abcdef" (R173). -/
def defaultKey : Block := 0x30313233343536373839616263646566

/-- The default seed, ASCII "zaybxcwdveuftgsh" (R173). -/
def defaultSeed : Block := 0x7a617962786377647665756674677368

/-- The bytes of a block, offset 0 first (00_scope.md R7). -/
def blockBytes (b : Block) : List Byte := (List.finRange 16).map (blockByte b)

/-- The block of a list of bytes, offset 0 first; bytes past the list's end are zero ("zero-filled", R174). -/
def blockOfList (bytes : List Byte) : Block := blockOfBytes fun k => bytes.getD k.val 0

/-- `n` bytes of a number, least significant first. -/
def littleEndian (n value : Nat) : List Byte :=
  match n with
  | 0 => []
  | m + 1 => BitVec.ofNat 8 value :: littleEndian m (value / 256)

/-- The initial `DT`: zero but for its first TIME_BYTES bytes, which hold the epoch seconds in host byte order (R174; 90_conflicts.md C4). -/
def initialDt (p : Config.ClientParams) (seconds : Nat) : Block :=
  match p.hostByteOrder with
  | .little => blockOfList (littleEndian p.timeBytes seconds)
  | .big => blockOfList (littleEndian p.timeBytes seconds).reverse

/-- The increment of R184 on the bytes of `DT`, the last byte first: stop at the first byte that does not wrap. -/
def incrementBytes (bytes : List Byte) : List Byte :=
  match bytes with
  | [] => []
  | b :: rest => if b + 1 = 0 then 0 :: incrementBytes rest else (b + 1) :: rest

/-- Step 7: `DT` as a 128-bit big-endian counter (R184). -/
def incrementDt (dt : Block) : Block := blockOfList (incrementBytes (blockBytes dt).reverse).reverse

/-- `encryptBlock(x)` in block commands: `ENCRYPT x`, then a look at `STATUS` and `DOUT` (R187; 70_reset_and_hazards.md R242). -/
def clientEncrypt (s : State) (x : Block) : State × Option Block :=
  match exec (.encrypt x) s with
  | .next s' => (s', if s'.err then none else s'.observeDout)
  | _ => (s, none)

/-- The registers that `initialize` sets: `V` is the seed, `DT` is given, `prevRand` is zero (R173 to R175). -/
def initialGenerator (seed : Option Block) (dt : Block) : Generator :=
  { v := seed.getD defaultSeed, dt := dt, prevRand := 0 }

/-- `initialize`: the registers, and one EXPANDKEY (R173 to R176). When the block refuses the EXPANDKEY the Generator cannot
be used (log entry 14). -/
def clientInitialize (key seed : Option Block) (dt : Block) (s : State) : Client × State :=
  match exec (.expandkey (key.getD defaultKey)) s with
  | .next s' => (if s'.err then .spent (initialGenerator seed dt) else .ready (initialGenerator seed dt), s')
  | _ => (.spent (initialGenerator seed dt), s)

/-- The answer to one block of `generate`. -/
inductive BlockAnswer where
  /-- The block was emitted: `rand`, the Generator and the block after it. -/
  | emitted (rand : Block) (g : Generator) (s : State)
  /-- The block failed; the Generator keeps its values (R180). -/
  | failed (e : ClientError) (s : State)
  deriving DecidableEq, Repr

/-- Steps 1 to 7 for one block, without the append (R178 to R182, R184). -/
def generateBlock (g : Generator) (s : State) : BlockAnswer :=
  match clientEncrypt s g.dt with
  | (s1, none) => .failed .blockRefused s1
  | (s1, some i) =>
    match clientEncrypt s1 (i ^^^ g.v) with
    | (s2, none) => .failed .blockRefused s2
    | (s2, some rand) =>
      if rand = g.prevRand then .failed .selfCollision s2
      else
        match clientEncrypt s2 (rand ^^^ i) with
        | (s3, none) => .failed .blockRefused s3
        | (s3, some v) => .emitted rand { v := v, dt := incrementDt g.dt, prevRand := rand } s3

/-- The answer to a `generate` call. -/
inductive GenerateAnswer where
  /-- The bytes requested, the Generator and the block after the call. -/
  | bytes (out : List Byte) (c : Client) (s : State)
  /-- The whole call failed; `written` had already gone into the buffer (R180; 90_conflicts.md C5). The caller is told only
  that it failed (R177), and the Generator is spent (R186). -/
  | failed (e : ClientError) (written : List Byte) (c : Client) (s : State)
  /-- No meaning: the Generator was spent before the call (R186; 93_implementation_defined.md S5). -/
  | noMeaning
  deriving DecidableEq, Repr

/-- Put bytes written earlier in the call before those of the rest of it. -/
def GenerateAnswer.after (a : GenerateAnswer) (earlier : List Byte) : GenerateAnswer :=
  match a with
  | .bytes out c s => .bytes (earlier ++ out) c s
  | .failed e written c s => .failed e (earlier ++ written) c s
  | .noMeaning => .noMeaning

/-- `k` blocks with `remaining` bytes still wanted; step 6 takes `min(16, remaining)` bytes of each `rand` (R183). A failing
block ends the call and spends the Generator (R180, R186). -/
def generateBlocks (k remaining : Nat) (g : Generator) (s : State) : GenerateAnswer :=
  match k with
  | 0 => .bytes [] (.ready g) s
  | m + 1 =>
    match generateBlock g s with
    | .failed e s' => .failed e [] (.spent g) s'
    | .emitted rand g' s' =>
      (generateBlocks m (remaining - 16) g' s').after ((blockBytes rand).take (min 16 remaining))

/-- `generate(length)`: `ceil(length/16)` blocks (R177). The first use initialises the Generator, with the defaults of R173
and the time stamp `dt`, and fails when the block refuses its EXPANDKEY (R172; log entry 14). A spent Generator has no
meaning, whatever the length (R186; 93_implementation_defined.md S5). -/
def generate (length : Nat) (c : Client) (dt : Block) (s : State) : GenerateAnswer :=
  match c with
  | .fresh =>
    match clientInitialize none none dt s with
    | (.ready g, s') => generateBlocks ((length + 15) / 16) length g s'
    | (c', s') => .failed .blockRefused [] c' s'
  | .ready g => generateBlocks ((length + 15) / 16) length g s
  | .spent _ => .noMeaning

/-- The end of the FlagPageInitializer (R188). -/
inductive FlagPageAnswer where
  /-- Silent success: the page's bytes at the mapped address, and the Generator and the block as the fill left them. -/
  | filled (base : Nat) (bytes : List Byte) (c : Client) (s : State)
  /-- The process terminates with a nonzero status, and its Generator with it; the block is as the client left it. -/
  | terminated (e : ClientError) (s : State)
  /-- No meaning: the Generator was spent before (R186; 93_implementation_defined.md S5). The FlagPageInitializer runs
  "before any other logic", so this does not happen in its use. -/
  | noMeaning
  deriving DecidableEq, Repr

/-- FlagPageInitializer: reserve the page, then fill all of it; a failure of either ends the process (R188). `mapped` is the
host mapping collaborator's answer, a black box (R191). -/
def initializeFlagPage (p : Config.ClientParams) (mapped : Bool) (c : Client) (dt : Block) (s : State) : FlagPageAnswer :=
  if mapped then
    match generate p.flagPageSize c dt s with
    | .bytes out c' s' => .filled p.flagPageBase out c' s'
    | .failed _ _ _ s' => .terminated .initialization s'
    | .noMeaning => .noMeaning
  else .terminated .initialization s

end Sys2Proof.Machine
end

