-- ==== Sys2Proof/Machine/Script.lean ====
section
/-! DEFINITION. The host's command sequences: the lines of 30_encoding.md R91 and the two pseudo-instructions of R92, as
abstract syntax (log entry 16). Each line stands for transactions or for one observation; none has an encoding of its own. -/

namespace Sys2Proof.Machine

/-- A line of a script (30_encoding.md R91, R92). -/
inductive Line where
  /-- `RESET`. -/
  | reset
  /-- `EXPANDKEY <hex32>`. -/
  | expandkey (key : Block)
  /-- `ENCRYPT <hex32>`. -/
  | encrypt (input : Block)
  /-- `RDRK <n>`, n = 0..255, so that BADARG can be written down. -/
  | rdrk (n : Byte)
  /-- `CMD <hex2> <hex32>`: any command word. -/
  | cmd (op : Byte) (operand : Block)
  /-- `EXPECT DOUT <hex32>`. -/
  | expectDout (b : Block)
  /-- `EXPECT STATUS <hex2>`. -/
  | expectStatus (v : Byte)
  /-- `RDSCHED`: `RDRK 0` to `RDRK 10`. -/
  | rdsched
  /-- `KEYED_ENCRYPT <key>, <in>`: `EXPANDKEY <key>`, `ENCRYPT <in>`. -/
  | keyedEncrypt (key input : Block)
  deriving DecidableEq, Repr

/-- The operand of `RDRK <n>`: `zext_128(n)` (R91). -/
def rdrkOperand (n : Byte) : Block := n.zeroExtend 128

/-- The transactions a line stands for, in order; an observation is no transaction (R80, R91, R92). -/
def Line.transactions (l : Line) : List Transaction :=
  match l with
  | .reset => [.reset]
  | .expandkey key => [.issue (cmdWord 0x01 key)]
  | .encrypt input => [.issue (cmdWord 0x02 input)]
  | .rdrk n => [.issue (cmdWord 0x03 (rdrkOperand n))]
  | .cmd op operand => [.issue (cmdWord op operand)]
  | .expectDout _ => []
  | .expectStatus _ => []
  | .rdsched => (List.range 11).map fun n => .issue (cmdWord 0x03 (rdrkOperand (BitVec.ofNat 8 n)))
  | .keyedEncrypt key input => [.issue (cmdWord 0x01 key), .issue (cmdWord 0x02 input)]

/-- Whether the observation a line stands for holds in a state; a line that is no observation holds (R91). -/
def Line.holds (l : Line) (s : State) : Bool :=
  match l with
  | .expectDout b => s.observeDout == some b
  | .expectStatus v => s.status == v
  | _ => true

/-- Perform transactions in order (20_memory.md R62), stopping where one stops. -/
def performAll (trs : List Transaction) (s : State) : Host.Outcome State Fault Refusal :=
  match trs with
  | [] => .next s
  | tr :: rest =>
    match perform tr s with
    | .next s' => performAll rest s'
    | .fault r => .fault r
    | .refused r => .refused r

/-- Whether every observation of a script holds where it stands. -/
def scriptHolds (ls : List Line) (s : State) : Bool :=
  match ls with
  | [] => true
  | l :: rest =>
    match performAll l.transactions s with
    | .next s' => l.holds s' && scriptHolds rest s'
    | _ => false

end Sys2Proof.Machine
end

