-- ==== Sys2Proof/Safety.lean ====
section
/-! DEFINITION. What claims speak of: clean states and runs (43_system_commands.md R164), and the invariants of the block's
state that the spec states in prose (10_state.md R22, R25, R27, the note under R28, R29 to R32). -/

namespace Sys2Proof.Machine

/-- `W` holds a schedule: every one of the 44 words has a value, that of the schedule (10_state.md R22). -/
def State.HoldsSchedule (s : State) (w : Schedule) : Prop := s.w = w.map some

/-- `KVALID = 1`: `W` holds the schedule of some key. `KVALID = 0`: no word of `W` has a value (10_state.md R22). -/
def State.KeyStoreInv (s : State) : Prop :=
  (s.kvalid = true → ∃ key : Block, s.HoldsSchedule (keyExpansion key)) ∧
    (s.kvalid = false → s.w = Vector.replicate 44 none)

/-- `DVALID = 1` exactly when `DOUT` has a value (R25), and a result needs a key (note under R28). -/
def State.ResultInv (s : State) : Prop :=
  s.dvalid = s.dout.isSome ∧ (s.dvalid = true → s.kvalid = true)

/-- `ERR = 0` if and only if `ERRCODE = 0` (R27), and NOKEY implies `KVALID = 0` (note under R28). -/
def State.ErrorInv (s : State) : Prop :=
  (s.err = false ↔ s.errcode = .noError) ∧ (s.errcode = .nokey → s.kvalid = false)

/-- Between transactions no transient element has a value (R29 to R32; 92_eei_decisions.md D15, D16). -/
def State.Quiescent (s : State) : Prop :=
  s.captured = none ∧ s.matrix = none ∧ s.t = none ∧ s.rnd = none ∧ s.ki = none

/-- The invariant of the block between transactions. -/
def State.Inv (s : State) : Prop := s.KeyStoreInv ∧ s.ResultInv ∧ s.ErrorInv ∧ s.Quiescent

/-- A state a clean run ends in: `ERR = 0` (43_system_commands.md R164). -/
def State.Clean (s : State) : Prop := s.err = false

/-- The end state of a run: the transactions of the host after the `reset` that begins it (43_system_commands.md R164). -/
def runFromReset (trs : List Transaction) : Host.Outcome State Fault Refusal := performAll (.reset :: trs) State.reset

end Sys2Proof.Machine
end

