-- ==== Sys2Proof/Certificates/Slice0/Obligations.lean ====
section
/-! DEFINITION. Statements about the block, from the numbered rules of spec/. -/

open Sys2Proof Sys2Proof.Machine

/-! ### Encoding -/

/-- Every command, with every operand, is read back from its word: no bit of an encoding is dropped (30_encoding.md sections 2, 3). -/
def Obligations.DecodeEncodeRoundTrip : Prop :=
  ∀ i : Instr, decode (encode i) = .ok i

/-- Each word that is a command is the word of that command and of no other (30_encoding.md sections 2, 3). -/
def Obligations.EncodeDecodeRoundTrip : Prop :=
  ∀ (c : CmdWord) (i : Instr), decode c = .ok i → encode i = c

/-- The opcode map; the opcode alone selects the command, and every other value is reserved (R83). -/
def Obligations.OpcodeSelectsCommand : Prop :=
  ∀ (op : Byte) (operand : Block), decode (cmdWord op operand) =
    if op = 0x01 then .ok (.expandkey operand)
    else if op = 0x02 then .ok (.encrypt operand)
    else if op = 0x03 then .ok (.rdrk (operand.extractLsb' 8 120) (operand.extractLsb' 0 8))
    else .error (.reservedOpcode op)

/-- The command words of 95_test_vectors.md V20 decode to the commands they stand for. -/
def Obligations.SpecWordsDecode : Prop :=
  decode 0x01000102030405060708090a0b0c0d0e0f = .ok (.expandkey 0x000102030405060708090a0b0c0d0e0f) ∧
  decode 0x0200112233445566778899aabbccddeeff = .ok (.encrypt 0x00112233445566778899aabbccddeeff) ∧
  decode 0x0300000000000000000000000000000000 = .ok (.rdrk 0 0) ∧
  decode 0x030000000000000000000000000000000a = .ok (.rdrk 0 10) ∧
  decode 0x030000000000000000000000000000000b = .ok (.rdrk 0 11) ∧
  decode 0x0300000000000000000000000000000100 = .ok (.rdrk 1 0) ∧
  decode 0x0000000000000000000000000000000000 = .error (.reservedOpcode 0x00) ∧
  decode 0x0400112233445566778899aabbccddeeff = .error (.reservedOpcode 0x04)

/-! ### One step is one transaction -/

/-- A command at the port that decodes is run by `exec`, on the state in which the command is captured and taken off the
host's stream; the captured copy then loses its value (R29, R80). The host's stream is the model's choice (log entry 3). -/
def Obligations.StepRunsDecodedCommand : Prop :=
  ∀ (s : State) (c : CmdWord) (i : Instr) (rest : List Transaction), s.port = .issue c :: rest → decode c = .ok i →
    step s = onNext (fun t => { t with captured := none }) (exec i { s with captured := some c, port := rest })

/-- A step performs the host's next transaction and takes it off the host's stream; with none the block holds its state.
The stream is the model's choice (log entry 3). -/
def Obligations.StepTakesNextTransaction : Prop :=
  (∀ (s : State) (tr : Transaction) (rest : List Transaction), s.port = tr :: rest →
    step s = perform tr { s with port := rest }) ∧
  (∀ s : State, s.port = [] → step s = .next s)

/-- The `reset` transaction, from every state: flags and `ERRCODE` 0, hence `STATUS = 0x00`; no other element has a value
(R37). The model's choices, log entries 3 and 4: the host's stream stays as it is, and `State.reset` is that state with no
transaction to come. -/
def Obligations.ResetTransaction : Prop :=
  ∀ s : State, ∃ t, perform .reset s = .next t ∧
    t.kvalid = false ∧ t.dvalid = false ∧ t.err = false ∧ t.errcode = .noError ∧ t.status = 0x00 ∧
    (∀ i, t.readWord i = none) ∧ t.dout = none ∧ t.matrix = none ∧ t.t = none ∧ t.rnd = none ∧ t.ki = none ∧
    t.captured = none ∧ t.port = s.port ∧ (s.port = [] → t = State.reset)

/-- The decode order on `issue(op, operand)`: the first step that applies decides (R90). The captured command has no value
after it (R29). -/
def Obligations.DecodeOrder : Prop :=
  ∀ (s : State) (op : Byte) (operand : Block),
    if s.err = true then issue (cmdWord op operand) s = .next { s with captured := none }
    else if op ≠ 0x01 ∧ op ≠ 0x02 ∧ op ≠ 0x03 then
      issue (cmdWord op operand) s = .next { s with err := true, errcode := .badcmd, captured := none }
    else if op = 0x03 ∧ (operand.extractLsb' 8 120 ≠ 0 ∨ 10 < (operand.extractLsb' 0 8).toNat) then
      issue (cmdWord op operand) s = .next { s with err := true, errcode := .badarg, captured := none }
    else if (op = 0x02 ∨ op = 0x03) ∧ s.kvalid = false then
      issue (cmdWord op operand) s = .next { s with err := true, errcode := .nokey, captured := none }
    else ∃ i, i.opcode = op ∧ i.operand = operand ∧
      issue (cmdWord op operand) s =
        onNext (fun t => { t with captured := none }) (exec i { s with captured := some (cmdWord op operand) })

/-- Every step answers a next state: an issued command always commits (70_reset_and_hazards.md section 4). The model's
choices: the step takes the first transaction, where there is one, off the host's stream (log entry 3), and a command that
meets a word without a value commits all the same (log entry 2). -/
def Obligations.EveryStepCommits : Prop :=
  ∀ s : State, ∃ t, step s = .next t ∧ t.port = s.port.tail

/-! ### EXPANDKEY -/

/-- `EXPANDKEY key`: accepted, all 44 words become `KeyExpansion(key)` and `KVALID` 1, nothing else changes but the
expander's own `t` and `KI`, which have no value outside the command (10_state.md R31; 92_eei_decisions.md D15); the next ENCRYPT uses the new schedule, all of it, whatever was in
the block before; while `ERR = 1` nothing changes (R106). -/
def Obligations.ExpandkeyInstallsSchedule : Prop :=
  ∀ (key : Block) (s : State),
    (s.err = false → exec (.expandkey key) s =
      .next { s with w := (keyExpansion key).map some, kvalid := true, t := none, ki := none }) ∧
    (s.err = false → ∀ input, ∃ s1 s2, exec (.expandkey key) s = .next s1 ∧ exec (.encrypt input) s1 = .next s2 ∧
      s2.observeDout = some (cipher input (keyExpansion key)) ∧ s2.HoldsSchedule (keyExpansion key) ∧ s2.err = false) ∧
    (s.err = true → exec (.expandkey key) s = .next s)

/-- The frame of EXPANDKEY: it writes `W`, `KVALID`, `t` and `KI` only (10_state.md section 7, 40_key_expansion.md section 2). -/
def Obligations.ExpandkeyFrame : Prop :=
  ∀ (key : Block) (s t : State), exec (.expandkey key) s = .next t →
    t.dout = s.dout ∧ t.dvalid = s.dvalid ∧ t.err = s.err ∧ t.errcode = s.errcode ∧ t.captured = s.captured ∧
      t.matrix = s.matrix ∧ t.rnd = s.rnd ∧ t.port = s.port

/-! ### ENCRYPT -/

/-- `ENCRYPT in`: accepted, it leaves `Cipher(in, W)` in `DOUT` and `DVALID = 1`, and changes nothing else but the
pipeline's own `S` and `RND`, which have no value outside the command (10_state.md R30; 92_eei_decisions.md D15); without a key NOKEY; while `ERR = 1` nothing changes (R124). -/
def Obligations.EncryptComputesCipher : Prop :=
  ∀ (input : Block) (s : State),
    (∀ w, s.err = false → s.kvalid = true → s.HoldsSchedule w → exec (.encrypt input) s =
      .next { s with dout := some (cipher input w), dvalid := true, matrix := none, rnd := none }) ∧
    (s.err = false → s.kvalid = false → exec (.encrypt input) s = .next { s with err := true, errcode := .nokey }) ∧
    (s.err = true → exec (.encrypt input) s = .next s)

/-- The frame of ENCRYPT, in every state: the key store (every word of `W`), `KVALID`, the captured command, `t`, `KI` and
the host's stream are unchanged; accepted, `ERR` and `ERRCODE` are too; refused, `DOUT`, `DVALID`, `S` and `RND` are too
(10_state.md sections 2 and 7, 41_encrypt_block.md section 2). -/
def Obligations.EncryptFrame : Prop :=
  ∀ (input : Block) (s t : State), exec (.encrypt input) s = .next t →
    (∀ i, t.readWord i = s.readWord i) ∧ t.w = s.w ∧ t.kvalid = s.kvalid ∧ t.captured = s.captured ∧ t.t = s.t ∧
      t.ki = s.ki ∧ t.port = s.port ∧
      (s.err = false ∧ s.kvalid = true → t.err = s.err ∧ t.errcode = s.errcode) ∧
      (s.err = true ∨ s.kvalid = false → t.dout = s.dout ∧ t.dvalid = s.dvalid ∧ t.matrix = s.matrix ∧ t.rnd = s.rnd)

/-! ### RDRK -/

/-- `RDRK n`: accepted, round key `n` goes to `DOUT` (for `n = 0` the master key) and `DVALID` becomes 1; a malformed operand is BADARG, checked before
the key, whose absence is NOKEY; while `ERR = 1` nothing changes (R160). -/
def Obligations.RdrkReadsRoundKey : Prop :=
  ∀ (reserved : BitVec 120) (n : Byte) (s : State),
    (∀ (w : Schedule) (r : Fin 11), s.err = false → s.kvalid = true → s.HoldsSchedule w → reserved = 0 → n.toNat = r.val →
      exec (.rdrk reserved n) s = .next { s with
        dout := some (blockOfBytes fun k => wordByte w[roundWord r (offsetCol k)] (offsetRow k)), dvalid := true }) ∧
    (∀ key, s.err = false → s.kvalid = true → s.HoldsSchedule (keyExpansion key) → reserved = 0 → n = 0 →
      exec (.rdrk reserved n) s = .next { s with dout := some key, dvalid := true }) ∧
    (s.err = false → (reserved ≠ 0 ∨ 10 < n.toNat) →
      exec (.rdrk reserved n) s = .next { s with err := true, errcode := .badarg }) ∧
    (s.err = false → reserved = 0 → n.toNat ≤ 10 → s.kvalid = false →
      exec (.rdrk reserved n) s = .next { s with err := true, errcode := .nokey }) ∧
    (s.err = true → exec (.rdrk reserved n) s = .next s)

/-- The frame of RDRK, in every state: it writes `DOUT` and `DVALID`, or `ERR` and `ERRCODE`, never both, and nothing else
(10_state.md sections 2 and 7, 43_system_commands.md section 1). -/
def Obligations.RdrkFrame : Prop :=
  ∀ (reserved : BitVec 120) (n : Byte) (s t : State), exec (.rdrk reserved n) s = .next t →
    (∀ i, t.readWord i = s.readWord i) ∧ t.w = s.w ∧ t.kvalid = s.kvalid ∧ t.captured = s.captured ∧
      t.matrix = s.matrix ∧ t.t = s.t ∧ t.rnd = s.rnd ∧ t.ki = s.ki ∧ t.port = s.port ∧
      ((t.err = s.err ∧ t.errcode = s.errcode) ∨ (t.dout = s.dout ∧ t.dvalid = s.dvalid))

/-- After an accepted EXPANDKEY, RDRK delivers each of the eleven round keys (43_system_commands.md section 1). -/
def Obligations.RdrkDeliversExpandedKey : Prop :=
  ∀ (key : Block) (s : State) (r : Fin 11), s.err = false → ∃ s1 s2,
    exec (.expandkey key) s = .next s1 ∧ exec (.rdrk 0 (BitVec.ofNat 8 r.val)) s1 = .next s2 ∧
      s2.observeDout = some (RoundKey.toBlock (roundKey (keyExpansion key) r)) ∧ s2.err = false

/-! ### Refusals -/

/-- BADCMD: issuing a reserved opcode, whatever the operand and whatever `KVALID` (R201). -/
def Obligations.BadcmdRaised : Prop :=
  ∀ (s : State) (op : Byte) (operand : Block), s.err = false → (op = 0x00 ∨ 0x04 ≤ op.toNat) →
    issue (cmdWord op operand) s = .next { s with err := true, errcode := .badcmd, captured := none }

/-- BADARG: raised by RDRK on an operand with a bit of 127..8 set or a round number above 10; the other two commands cannot
raise it (R202). -/
def Obligations.BadargRaised : Prop :=
  (∀ (reserved : BitVec 120) (n : Byte) (s : State), s.err = false → (reserved ≠ 0 ∨ 10 < n.toNat) →
    exec (.rdrk reserved n) s = .next { s with err := true, errcode := .badarg }) ∧
  (∀ (operand : Block) (s t : State), exec (.expandkey operand) s = .next t ∨ exec (.encrypt operand) s = .next t →
    t.errcode = .badarg → s.errcode = .badarg)

/-- NOKEY: raised by ENCRYPT and by a well-formed RDRK when `KVALID = 0`; EXPANDKEY cannot raise it (60_exceptions.md section 2). -/
def Obligations.NokeyRaised : Prop :=
  (∀ (i : Instr) (s : State), i.wellFormed = true → i.opcode ≠ 0x01 → s.err = false → s.kvalid = false →
    exec i s = .next { s with err := true, errcode := .nokey }) ∧
  (∀ (key : Block) (s t : State), exec (.expandkey key) s = .next t → t.errcode = .nokey → s.errcode = .nokey)

/-- While `ERR = 1` an issue of any opcode and operand changes nothing (and leaves no captured command) (R205). -/
def Obligations.StickyErrorRefusesAll : Prop :=
  ∀ (s : State) (c : CmdWord), s.err = true → issue c s = .next { s with captured := none }

/-- A refusal is precise: a transaction that takes `ERR` from 0 to 1 writes `ERR` and `ERRCODE`, with the code of a cause,
and nothing else; the captured command ends with it (60_exceptions.md section 3). -/
def Obligations.RefusalIsPrecise : Prop :=
  ∀ (tr : Transaction) (s t : State), s.err = false → perform tr s = .next t → t.err = true →
    t.errcode ≠ .noError ∧ t = { s with err := true, errcode := t.errcode, captured := none }

/-! ### Rules of the whole machine -/

/-- Only EXPANDKEY writes `W`: an EXPANDKEY with `ERR = 0` replaces all 44 words, a reset leaves them without a value, and
every other transaction (ENCRYPT, RDRK, any command refused) leaves them as they are (R23). -/
def Obligations.OnlyExpandkeyWritesSchedule : Prop :=
  ∀ (tr : Transaction) (s t : State), perform tr s = .next t →
    (∀ key, tr = .issue (encode (.expandkey key)) → s.err = false → t.HoldsSchedule (keyExpansion key)) ∧
    (tr = .reset → ∀ i, t.readWord i = none) ∧
    (tr ≠ .reset → (s.err = true ∨ ∀ key, tr ≠ .issue (encode (.expandkey key))) → t.w = s.w)

/-- Only `reset` clears `KVALID`, `DVALID` and `ERR`, and only it changes `ERRCODE` once `ERR` is set
(10_state.md sections 2 to 4, 70_reset_and_hazards.md section 1). -/
def Obligations.OnlyResetClearsFlags : Prop :=
  ∀ (tr : Transaction) (s t : State), perform tr s = .next t → tr ≠ .reset →
    (s.kvalid = true → t.kvalid = true) ∧ (s.dvalid = true → t.dvalid = true) ∧
      (s.err = true → t.err = true ∧ t.errcode = s.errcode)

/-- The state after reset meets the invariant. -/
def Obligations.InvAtReset : Prop := State.reset.Inv

/-- Every step keeps the invariant: `KVALID = 1` means that `W` holds the schedule of some key, `KVALID = 0` that no word of
`W` has a value; `DVALID` says whether `DOUT` has a value and implies `KVALID`; `ERR = 0` iff `ERRCODE = 0`, and NOKEY
implies `KVALID = 0`; no transient element has a value between transactions (10_state.md sections 2 to 6). -/
def Obligations.InvKeptByStep : Prop :=
  ∀ s t : State, s.Inv → step s = .next t → t.Inv

/-- Every run that begins with `reset`, whatever its transactions, has an end state, and it meets the invariant
(43_system_commands.md section 5). -/
def Obligations.RunsFromResetKeepInv : Prop :=
  ∀ trs : List Transaction, ∃ t, runFromReset trs = .next t ∧ t.Inv

/-- The reachable values of `STATUS` are exactly ten: every state that meets the invariant shows one of them, and a run that
begins with `reset` can end with a value exactly when it is one of them (10_state.md section 5). -/
def Obligations.StatusValuesReachable : Prop :=
  let ten : List Byte := [0x00, 0x01, 0x03, 0x0C, 0x0D, 0x0F, 0x14, 0x15, 0x17, 0x1C]
  (∀ s : State, s.Inv → s.status ∈ ten) ∧
    ∀ v : Byte, v ∈ ten ↔ ∃ trs t, runFromReset trs = .next t ∧ t.status = v

/-- The fields of `STATUS` (10_state.md section 5). -/
def Obligations.StatusFields : Prop :=
  ∀ s : State, s.status.getLsbD 0 = s.kvalid ∧ s.status.getLsbD 1 = s.dvalid ∧ s.status.getLsbD 2 = s.err ∧
    s.status.extractLsb' 3 2 = s.errcode.code ∧ s.status.extractLsb' 5 3 = 0

/-- What an accepted command produces has a value: in a state that meets the invariant, after EXPANDKEY every word of `W`,
after ENCRYPT and RDRK every word of `W` and `DOUT` (10_state.md section 8). That a result computed from a valueless word would
show as no value is the model's choice (log entry 2). -/
def Obligations.AcceptedResultsHaveValues : Prop :=
  ∀ (i : Instr) (s : State), s.Inv → s.err = false → i.wellFormed = true → (i.opcode = 0x01 ∨ s.kvalid = true) →
    ∃ t, exec i s = .next t ∧ t.err = false ∧ t.kvalid = true ∧ (∀ j, (t.readWord j).isSome = true) ∧
      (i.opcode ≠ 0x01 → t.observeDout.isSome = true)

/-- Two blocks, however different in key, result and flags, both with `ERR = 0`: after the same EXPANDKEY they hold the same
schedule, and after the same ENCRYPT that follows it they show the same `DOUT` (40_key_expansion.md section 2,
41_encrypt_block.md sections 1 and 2). Between the two commands the old `DOUT` stays visible (70_reset_and_hazards.md R240). -/
def Obligations.EncryptAfterRekeyIgnoresPast : Prop :=
  ∀ (key input : Block) (a b a1 b1 a2 b2 : State), a.err = false → b.err = false →
    exec (.expandkey key) a = .next a1 → exec (.expandkey key) b = .next b1 →
    exec (.encrypt input) a1 = .next a2 → exec (.encrypt input) b1 = .next b2 →
    a1.w = b1.w ∧ a2.observeDout = b2.observeDout

/-- The minimal run `RESET; EXPANDKEY k; ENCRYPT x` ends with `STATUS = 0x03` and `DOUT = Cipher(x, KeyExpansion(k))`
(70_reset_and_hazards.md section 2). -/
def Obligations.MinimalRun : Prop :=
  ∀ key input : Block, ∃ t,
    runFromReset [.issue (encode (.expandkey key)), .issue (encode (.encrypt input))] = .next t ∧
      t.status = 0x03 ∧ t.observeDout = some (cipher input (keyExpansion key))

/-! ### Key expansion -/

/-- The first four words are the key, split big-endian; round key 0 as a block is the key (R100). -/
def Obligations.ScheduleBeginsWithKey : Prop :=
  ∀ key : Block,
    (∀ i : Fin 4, (keyExpansion key)[i.val] = wordOfBytes (blockByte key ⟨4 * i.val, by omega⟩)
      (blockByte key ⟨4 * i.val + 1, by omega⟩) (blockByte key ⟨4 * i.val + 2, by omega⟩)
      (blockByte key ⟨4 * i.val + 3, by omega⟩)) ∧
    RoundKey.toBlock (roundKey (keyExpansion key) 0) = key

/-- The recurrence: each of the words 4 to 43 from the word before it, transformed when `i mod 4 = 0` (rotate, substitute,
constant `RCON[i/4]`, ROM entry `i/4 - 1`), and the word four places before it (R101). -/
def Obligations.ScheduleRecurrence : Prop :=
  ∀ (key : Block) (i : Nat) (_ : 4 ≤ i) (_ : i < 44),
    (keyExpansion key)[i] = (keyExpansion key)[i - 4] ^^^
      (if i % 4 = 0 then
        subWord (rotWord (keyExpansion key)[i - 1]) ^^^ ((rcon ⟨i / 4 - 1, by omega⟩).zeroExtend 32 <<< 24)
      else (keyExpansion key)[i - 1])

/-- Within a group of four the recurrence telescopes, so round key `n` depends on round key `n - 1` only
(40_key_expansion.md section 3). -/
def Obligations.RoundKeyFromPrevious : Prop :=
  ∀ (key : Block) (k : Fin 10),
    let old := roundKey (keyExpansion key) ⟨k.val, by omega⟩
    let new := roundKey (keyExpansion key) ⟨k.val + 1, by omega⟩
    new[0] = old[0] ^^^ groupTransform k old[3] ∧ new[1] = old[1] ^^^ new[0] ∧ new[2] = old[2] ^^^ new[1] ∧
      new[3] = old[3] ^^^ new[2]

/-- RotWord moves the top byte to the bottom and every other byte up one place; four times it is the identity (R102). -/
def Obligations.RotWordMovesBytes : Prop :=
  (∀ a0 a1 a2 a3 : Byte, rotWord (wordOfBytes a0 a1 a2 a3) = wordOfBytes a1 a2 a3 a0) ∧
    (∀ t : Word, rotWord (rotWord (rotWord (rotWord t))) = t) ∧
    (∀ t : Word, rotWord t = (t <<< 8) ||| (t >>> 24))

/-- SubWord replaces each of the four bytes by its S-box entry, in its position (R103). -/
def Obligations.SubWordBytewise : Prop :=
  ∀ (t : Word) (j : Fin 4), wordByte (subWord t) j = sbox (wordByte t j)

/-- The round constant goes into the top byte only; word `i` with `i mod 4 = 0` has ROM entry `i/4 - 1`, that is
`RCON[i/4]` (R104). -/
def Obligations.RoundConstantTopByteOnly : Prop :=
  (∀ (k : Fin 10) (t : Word), wordByte (addRcon k t) 0 = wordByte t 0 ^^^ rcon k ∧
    ∀ j : Fin 4, j ≠ 0 → wordByte (addRcon k t) j = wordByte t j) ∧
  (∀ i : Fin 44, 4 ≤ i.val → i.val % 4 = 0 → (rconIndex i).val + 1 = i.val / 4) ∧
  rcon (rconIndex 4) = 0x01 ∧ rcon (rconIndex 40) = 0x36

/-! ### The S-box, the field, and the transformations -/

/-- The table is the algebraic definition, whose inverse is a multiplicative inverse; it is a permutation of the bytes, and
no byte maps to itself or to its complement (R53). -/
def Obligations.SboxMatchesAlgebra : Prop :=
  (∀ a : Byte, sbox a = sboxAlgebraic a) ∧
  (∀ a : Byte, a ≠ 0 → gfMul a (gfInv a) = 1) ∧ gfInv 0 = 0 ∧
  (∀ a b : Byte, sbox a = sbox b → a = b) ∧
  (∀ a : Byte, sbox a ≠ a ∧ sbox a ≠ a ^^^ 0xFF) ∧
  sbox 0x00 = 0x63 ∧ sbox 0x01 = 0x7c ∧ sbox 0x52 = 0x00 ∧ sbox 0xff = 0x16

/-- MixColumns multiplies each column by the matrix of R145 over the field arithmetic of R140 and R141: `xtime` doubles and
reduces, each of the four rows of the new matrix is the row formula of R145, two columns are as the rule's examples say; it is
linear over XOR, and a column of four equal bytes is unchanged (42_round_transformations.md sections 1 and 2). -/
def Obligations.MixColumnsLinear : Prop :=
  (∀ a : Byte, (xtime a).toNat = if a.toNat < 128 then 2 * a.toNat else (2 * a.toNat - 256) ^^^ 0x1B) ∧
  (∀ (g : Grid) (c : Fin 4),
    let a := Grid.at g 0 c
    let b := Grid.at g 1 c
    let cc := Grid.at g 2 c
    let d := Grid.at g 3 c
    Grid.at (Grid.mixColumns g) 0 c = xtime a ^^^ (xtime b ^^^ b) ^^^ cc ^^^ d ∧
    Grid.at (Grid.mixColumns g) 1 c = a ^^^ xtime b ^^^ (xtime cc ^^^ cc) ^^^ d ∧
    Grid.at (Grid.mixColumns g) 2 c = a ^^^ b ^^^ xtime cc ^^^ (xtime d ^^^ d) ∧
    Grid.at (Grid.mixColumns g) 3 c = (xtime a ^^^ a) ^^^ b ^^^ cc ^^^ xtime d) ∧
  (∀ (g : Grid) (c : Fin 4), Grid.at g 1 c = 0 → Grid.at g 2 c = 0 → Grid.at g 3 c = 0 →
    (Grid.at g 0 c = 0x01 → (List.finRange 4).map (fun r => Grid.at (Grid.mixColumns g) r c) = [0x02, 0x01, 0x01, 0x03]) ∧
    (Grid.at g 0 c = 0x80 → (List.finRange 4).map (fun r => Grid.at (Grid.mixColumns g) r c) = [0x1b, 0x80, 0x80, 0x9b])) ∧
  (∀ (g h : Grid) (r c : Fin 4), Grid.at (Grid.mixColumns (Grid.ofFn fun r c => Grid.at g r c ^^^ Grid.at h r c)) r c =
    Grid.at (Grid.mixColumns g) r c ^^^ Grid.at (Grid.mixColumns h) r c) ∧
  (∀ (g : Grid) (c : Fin 4) (v : Byte), (∀ r, Grid.at g r c = v) → ∀ r, Grid.at (Grid.mixColumns g) r c = v)

/-- LoadState and StoreState: `S[r][c] = in[4c + r]` and `out[4c + r] = S[r][c]`, each the inverse of the other; after
LoadState `S` has a value, and after StoreState, whose result goes to `DOUT`, it has none again (R120, R123). -/
def Obligations.StoreInvertsLoad : Prop :=
  (∀ (b : Block) (r c : Fin 4), Grid.at (Grid.load b) r c = blockByte b ⟨4 * c.val + r.val, by omega⟩) ∧
  (∀ (g : Grid) (r c : Fin 4), blockByte (Grid.store g) ⟨4 * c.val + r.val, by omega⟩ = Grid.at g r c) ∧
  (∀ b : Block, Grid.store (Grid.load b) = b) ∧ (∀ g : Grid, Grid.load (Grid.store g) = g) ∧
  (∀ (input : Block) (s : State), (s.epStep input .loadState).matrix = some (Grid.load input)) ∧
  (∀ (input : Block) (s : State) (g : Grid), s.matrix = some g →
    (s.epStep input .storeState).dout = some (Grid.store g) ∧ (s.epStep input .storeState).matrix = none)

/-- ShiftRows: row `r` is shifted left by `r`, cyclically; row 3 shifted by 3 is row 3 shifted right by 1; four times it is
the identity (R144). -/
def Obligations.ShiftRowsCyclic : Prop :=
  (∀ (g : Grid) (r c : Fin 4), Grid.at (Grid.shiftRows g) r c = Grid.at g r ⟨(c.val + r.val) % 4, by omega⟩) ∧
  (∀ (g : Grid) (c : Fin 4), Grid.at (Grid.shiftRows g) 3 (c + 1) = Grid.at g 3 c) ∧
  (∀ g : Grid, Grid.shiftRows (Grid.shiftRows (Grid.shiftRows (Grid.shiftRows g))) = g)

/-- AddRoundKey(n): column `c` is XORed with word `W[4n + c]`, big-endian from row 0 down; as blocks it is the XOR with
`RK(n)`; it is its own inverse (R146). -/
def Obligations.AddRoundKeyIsBlockXor : Prop :=
  ∀ (w : Schedule) (n : Fin 11) (g : Grid),
    (∀ r c : Fin 4, Grid.at (Grid.addRoundKey (roundKey w n) g) r c =
      Grid.at g r c ^^^ ((w[4 * n.val + c.val]'(by omega)) >>> (24 - 8 * r.val)).setWidth 8) ∧
    Grid.store (Grid.addRoundKey (roundKey w n) g) = Grid.store g ^^^ RoundKey.toBlock (roundKey w n) ∧
    Grid.addRoundKey (roundKey w n) (Grid.addRoundKey (roundKey w n) g) = g

/-- The block form of the transformations: on 16-byte vectors they are what they are on the matrix
(42_round_transformations.md section 3). -/
def Obligations.BlockFormsAgree : Prop :=
  ∀ b : Block, Grid.store (Grid.subBytes (Grid.load b)) = blockSubBytes b ∧
    Grid.store (Grid.shiftRows (Grid.load b)) = blockShiftRows b ∧
    Grid.store (Grid.mixColumns (Grid.load b)) = blockMixColumns b

/-- For a fixed schedule `Cipher` is a permutation of the 2^128 blocks (41_encrypt_block.md section 1). -/
def Obligations.CipherIsPermutation : Prop :=
  ∀ w : Schedule, Function.Bijective fun input => cipher input w

/-! ### The reference client, outside the block -/

/-- Step 7 of the client, byte by byte with carry from the last byte, is the successor modulo 2^128 (R184). -/
def Obligations.IncrementDtIsSuccessor : Prop :=
  ∀ dt : Block, incrementDt dt = dt + 1

/-- One block of `generate`, on a block that holds a schedule: `I`, `rand`, the self-collision check, and the three
registers after it, by the cipher (44_reference_client.md section 4). -/
def Obligations.GenerateBlockByCipher : Prop :=
  ∀ (g : Generator) (s : State) (w : Schedule), s.err = false → s.kvalid = true → s.HoldsSchedule w →
    if cipher (cipher g.dt w ^^^ g.v) w = g.prevRand then ∃ s', generateBlock g s = .failed .selfCollision s'
    else ∃ s', generateBlock g s = .emitted (cipher (cipher g.dt w ^^^ g.v) w)
        { v := cipher (cipher (cipher g.dt w ^^^ g.v) w ^^^ cipher g.dt w) w, dt := g.dt + 1,
          prevRand := cipher (cipher g.dt w ^^^ g.v) w } s' ∧
      s'.HoldsSchedule w ∧ s'.kvalid = true ∧ s'.err = false

/-- `generate` yields exactly the number of bytes requested or fails whole; `length = 0` runs no block
(44_reference_client.md section 4). -/
def Obligations.GenerateLength : Prop :=
  (∀ (n : Nat) (c c' : Client) (dt : Block) (s s' : State) (out : List Byte),
    generate n c dt s = .bytes out c' s' → out.length = n ∧ ∃ g, c' = .ready g) ∧
  (∀ (g : Generator) (dt : Block) (s : State), generate 0 (.ready g) dt s = .bytes [] (.ready g) s)

/-- After a failed `generate` the Generator is spent, and no later `generate` of it, of any length, has a meaning
(44_reference_client.md section 4, 93_implementation_defined.md part 1). -/
def Obligations.FailedGeneratorIsNotReused : Prop :=
  ∀ (n m : Nat) (c c' : Client) (dt dt' : Block) (s s' s'' : State) (e : ClientError) (written : List Byte),
    generate n c dt s = .failed e written c' s' → generate m c' dt' s'' = .noMeaning

/-- The FlagPageInitializer as the Generator's first use, on a block with `ERR = 0` (44_reference_client.md section 6): the page
mapped, either all of it is filled at its base and the Generator is ready for later use, or the process terminates; either
way the block is left with the default key's schedule and `ERR = 0`. The page not mapped, the process terminates and no
command was issued. -/
def Obligations.FlagPageFilledOrTerminated : Prop :=
  ∀ (p : Config.ClientParams) (dt : Block) (s : State), s.err = false →
    (∃ s', s'.HoldsSchedule (keyExpansion defaultKey) ∧ s'.kvalid = true ∧ s'.err = false ∧
      ((∃ bytes g, bytes.length = p.flagPageSize ∧ initializeFlagPage p true .fresh dt s = .filled p.flagPageBase bytes (.ready g) s') ∨
        initializeFlagPage p true .fresh dt s = .terminated .initialization s')) ∧
    initializeFlagPage p false .fresh dt s = .terminated .initialization s
end

