-- ==== Sys2Proof/Laws/State.lean ====
section
/-! SUPPORT. What each named update of the state does to each field, so that no later proof unfolds a record update. -/

namespace Sys2Proof.Machine

@[simp] theorem State.setW_w (s : State) (v : Vector (Option Word) 44) : (s.setW v).w = v := rfl
@[simp] theorem State.setW_kvalid (s : State) (v : Vector (Option Word) 44) : (s.setW v).kvalid = s.kvalid := rfl
@[simp] theorem State.setW_dout (s : State) (v : Vector (Option Word) 44) : (s.setW v).dout = s.dout := rfl
@[simp] theorem State.setW_dvalid (s : State) (v : Vector (Option Word) 44) : (s.setW v).dvalid = s.dvalid := rfl
@[simp] theorem State.setW_err (s : State) (v : Vector (Option Word) 44) : (s.setW v).err = s.err := rfl
@[simp] theorem State.setW_errcode (s : State) (v : Vector (Option Word) 44) : (s.setW v).errcode = s.errcode := rfl
@[simp] theorem State.setW_captured (s : State) (v : Vector (Option Word) 44) : (s.setW v).captured = s.captured := rfl
@[simp] theorem State.setW_matrix (s : State) (v : Vector (Option Word) 44) : (s.setW v).matrix = s.matrix := rfl
@[simp] theorem State.setW_t (s : State) (v : Vector (Option Word) 44) : (s.setW v).t = s.t := rfl
@[simp] theorem State.setW_rnd (s : State) (v : Vector (Option Word) 44) : (s.setW v).rnd = s.rnd := rfl
@[simp] theorem State.setW_ki (s : State) (v : Vector (Option Word) 44) : (s.setW v).ki = s.ki := rfl
@[simp] theorem State.setW_port (s : State) (v : Vector (Option Word) 44) : (s.setW v).port = s.port := rfl

@[simp] theorem State.setKvalid_w (s : State) (v : Bool) : (s.setKvalid v).w = s.w := rfl
@[simp] theorem State.setKvalid_kvalid (s : State) (v : Bool) : (s.setKvalid v).kvalid = v := rfl
@[simp] theorem State.setKvalid_dout (s : State) (v : Bool) : (s.setKvalid v).dout = s.dout := rfl
@[simp] theorem State.setKvalid_dvalid (s : State) (v : Bool) : (s.setKvalid v).dvalid = s.dvalid := rfl
@[simp] theorem State.setKvalid_err (s : State) (v : Bool) : (s.setKvalid v).err = s.err := rfl
@[simp] theorem State.setKvalid_errcode (s : State) (v : Bool) : (s.setKvalid v).errcode = s.errcode := rfl
@[simp] theorem State.setKvalid_captured (s : State) (v : Bool) : (s.setKvalid v).captured = s.captured := rfl
@[simp] theorem State.setKvalid_matrix (s : State) (v : Bool) : (s.setKvalid v).matrix = s.matrix := rfl
@[simp] theorem State.setKvalid_t (s : State) (v : Bool) : (s.setKvalid v).t = s.t := rfl
@[simp] theorem State.setKvalid_rnd (s : State) (v : Bool) : (s.setKvalid v).rnd = s.rnd := rfl
@[simp] theorem State.setKvalid_ki (s : State) (v : Bool) : (s.setKvalid v).ki = s.ki := rfl
@[simp] theorem State.setKvalid_port (s : State) (v : Bool) : (s.setKvalid v).port = s.port := rfl

@[simp] theorem State.setDout_w (s : State) (v : Option Block) : (s.setDout v).w = s.w := rfl
@[simp] theorem State.setDout_kvalid (s : State) (v : Option Block) : (s.setDout v).kvalid = s.kvalid := rfl
@[simp] theorem State.setDout_dout (s : State) (v : Option Block) : (s.setDout v).dout = v := rfl
@[simp] theorem State.setDout_dvalid (s : State) (v : Option Block) : (s.setDout v).dvalid = s.dvalid := rfl
@[simp] theorem State.setDout_err (s : State) (v : Option Block) : (s.setDout v).err = s.err := rfl
@[simp] theorem State.setDout_errcode (s : State) (v : Option Block) : (s.setDout v).errcode = s.errcode := rfl
@[simp] theorem State.setDout_captured (s : State) (v : Option Block) : (s.setDout v).captured = s.captured := rfl
@[simp] theorem State.setDout_matrix (s : State) (v : Option Block) : (s.setDout v).matrix = s.matrix := rfl
@[simp] theorem State.setDout_t (s : State) (v : Option Block) : (s.setDout v).t = s.t := rfl
@[simp] theorem State.setDout_rnd (s : State) (v : Option Block) : (s.setDout v).rnd = s.rnd := rfl
@[simp] theorem State.setDout_ki (s : State) (v : Option Block) : (s.setDout v).ki = s.ki := rfl
@[simp] theorem State.setDout_port (s : State) (v : Option Block) : (s.setDout v).port = s.port := rfl

@[simp] theorem State.setDvalid_w (s : State) (v : Bool) : (s.setDvalid v).w = s.w := rfl
@[simp] theorem State.setDvalid_kvalid (s : State) (v : Bool) : (s.setDvalid v).kvalid = s.kvalid := rfl
@[simp] theorem State.setDvalid_dout (s : State) (v : Bool) : (s.setDvalid v).dout = s.dout := rfl
@[simp] theorem State.setDvalid_dvalid (s : State) (v : Bool) : (s.setDvalid v).dvalid = v := rfl
@[simp] theorem State.setDvalid_err (s : State) (v : Bool) : (s.setDvalid v).err = s.err := rfl
@[simp] theorem State.setDvalid_errcode (s : State) (v : Bool) : (s.setDvalid v).errcode = s.errcode := rfl
@[simp] theorem State.setDvalid_captured (s : State) (v : Bool) : (s.setDvalid v).captured = s.captured := rfl
@[simp] theorem State.setDvalid_matrix (s : State) (v : Bool) : (s.setDvalid v).matrix = s.matrix := rfl
@[simp] theorem State.setDvalid_t (s : State) (v : Bool) : (s.setDvalid v).t = s.t := rfl
@[simp] theorem State.setDvalid_rnd (s : State) (v : Bool) : (s.setDvalid v).rnd = s.rnd := rfl
@[simp] theorem State.setDvalid_ki (s : State) (v : Bool) : (s.setDvalid v).ki = s.ki := rfl
@[simp] theorem State.setDvalid_port (s : State) (v : Bool) : (s.setDvalid v).port = s.port := rfl

@[simp] theorem State.setError_w (s : State) (v : ErrCode) : (s.setError v).w = s.w := rfl
@[simp] theorem State.setError_kvalid (s : State) (v : ErrCode) : (s.setError v).kvalid = s.kvalid := rfl
@[simp] theorem State.setError_dout (s : State) (v : ErrCode) : (s.setError v).dout = s.dout := rfl
@[simp] theorem State.setError_dvalid (s : State) (v : ErrCode) : (s.setError v).dvalid = s.dvalid := rfl
@[simp] theorem State.setError_err (s : State) (v : ErrCode) : (s.setError v).err = true := rfl
@[simp] theorem State.setError_errcode (s : State) (v : ErrCode) : (s.setError v).errcode = v := rfl
@[simp] theorem State.setError_captured (s : State) (v : ErrCode) : (s.setError v).captured = s.captured := rfl
@[simp] theorem State.setError_matrix (s : State) (v : ErrCode) : (s.setError v).matrix = s.matrix := rfl
@[simp] theorem State.setError_t (s : State) (v : ErrCode) : (s.setError v).t = s.t := rfl
@[simp] theorem State.setError_rnd (s : State) (v : ErrCode) : (s.setError v).rnd = s.rnd := rfl
@[simp] theorem State.setError_ki (s : State) (v : ErrCode) : (s.setError v).ki = s.ki := rfl
@[simp] theorem State.setError_port (s : State) (v : ErrCode) : (s.setError v).port = s.port := rfl

@[simp] theorem State.setCaptured_w (s : State) (v : Option CmdWord) : (s.setCaptured v).w = s.w := rfl
@[simp] theorem State.setCaptured_kvalid (s : State) (v : Option CmdWord) : (s.setCaptured v).kvalid = s.kvalid := rfl
@[simp] theorem State.setCaptured_dout (s : State) (v : Option CmdWord) : (s.setCaptured v).dout = s.dout := rfl
@[simp] theorem State.setCaptured_dvalid (s : State) (v : Option CmdWord) : (s.setCaptured v).dvalid = s.dvalid := rfl
@[simp] theorem State.setCaptured_err (s : State) (v : Option CmdWord) : (s.setCaptured v).err = s.err := rfl
@[simp] theorem State.setCaptured_errcode (s : State) (v : Option CmdWord) : (s.setCaptured v).errcode = s.errcode := rfl
@[simp] theorem State.setCaptured_captured (s : State) (v : Option CmdWord) : (s.setCaptured v).captured = v := rfl
@[simp] theorem State.setCaptured_matrix (s : State) (v : Option CmdWord) : (s.setCaptured v).matrix = s.matrix := rfl
@[simp] theorem State.setCaptured_t (s : State) (v : Option CmdWord) : (s.setCaptured v).t = s.t := rfl
@[simp] theorem State.setCaptured_rnd (s : State) (v : Option CmdWord) : (s.setCaptured v).rnd = s.rnd := rfl
@[simp] theorem State.setCaptured_ki (s : State) (v : Option CmdWord) : (s.setCaptured v).ki = s.ki := rfl
@[simp] theorem State.setCaptured_port (s : State) (v : Option CmdWord) : (s.setCaptured v).port = s.port := rfl

@[simp] theorem State.setMatrix_w (s : State) (v : Option Grid) : (s.setMatrix v).w = s.w := rfl
@[simp] theorem State.setMatrix_kvalid (s : State) (v : Option Grid) : (s.setMatrix v).kvalid = s.kvalid := rfl
@[simp] theorem State.setMatrix_dout (s : State) (v : Option Grid) : (s.setMatrix v).dout = s.dout := rfl
@[simp] theorem State.setMatrix_dvalid (s : State) (v : Option Grid) : (s.setMatrix v).dvalid = s.dvalid := rfl
@[simp] theorem State.setMatrix_err (s : State) (v : Option Grid) : (s.setMatrix v).err = s.err := rfl
@[simp] theorem State.setMatrix_errcode (s : State) (v : Option Grid) : (s.setMatrix v).errcode = s.errcode := rfl
@[simp] theorem State.setMatrix_captured (s : State) (v : Option Grid) : (s.setMatrix v).captured = s.captured := rfl
@[simp] theorem State.setMatrix_matrix (s : State) (v : Option Grid) : (s.setMatrix v).matrix = v := rfl
@[simp] theorem State.setMatrix_t (s : State) (v : Option Grid) : (s.setMatrix v).t = s.t := rfl
@[simp] theorem State.setMatrix_rnd (s : State) (v : Option Grid) : (s.setMatrix v).rnd = s.rnd := rfl
@[simp] theorem State.setMatrix_ki (s : State) (v : Option Grid) : (s.setMatrix v).ki = s.ki := rfl
@[simp] theorem State.setMatrix_port (s : State) (v : Option Grid) : (s.setMatrix v).port = s.port := rfl

@[simp] theorem State.setT_w (s : State) (v : Option Word) : (s.setT v).w = s.w := rfl
@[simp] theorem State.setT_kvalid (s : State) (v : Option Word) : (s.setT v).kvalid = s.kvalid := rfl
@[simp] theorem State.setT_dout (s : State) (v : Option Word) : (s.setT v).dout = s.dout := rfl
@[simp] theorem State.setT_dvalid (s : State) (v : Option Word) : (s.setT v).dvalid = s.dvalid := rfl
@[simp] theorem State.setT_err (s : State) (v : Option Word) : (s.setT v).err = s.err := rfl
@[simp] theorem State.setT_errcode (s : State) (v : Option Word) : (s.setT v).errcode = s.errcode := rfl
@[simp] theorem State.setT_captured (s : State) (v : Option Word) : (s.setT v).captured = s.captured := rfl
@[simp] theorem State.setT_matrix (s : State) (v : Option Word) : (s.setT v).matrix = s.matrix := rfl
@[simp] theorem State.setT_t (s : State) (v : Option Word) : (s.setT v).t = v := rfl
@[simp] theorem State.setT_rnd (s : State) (v : Option Word) : (s.setT v).rnd = s.rnd := rfl
@[simp] theorem State.setT_ki (s : State) (v : Option Word) : (s.setT v).ki = s.ki := rfl
@[simp] theorem State.setT_port (s : State) (v : Option Word) : (s.setT v).port = s.port := rfl

@[simp] theorem State.setRnd_w (s : State) (v : Option (Fin 11)) : (s.setRnd v).w = s.w := rfl
@[simp] theorem State.setRnd_kvalid (s : State) (v : Option (Fin 11)) : (s.setRnd v).kvalid = s.kvalid := rfl
@[simp] theorem State.setRnd_dout (s : State) (v : Option (Fin 11)) : (s.setRnd v).dout = s.dout := rfl
@[simp] theorem State.setRnd_dvalid (s : State) (v : Option (Fin 11)) : (s.setRnd v).dvalid = s.dvalid := rfl
@[simp] theorem State.setRnd_err (s : State) (v : Option (Fin 11)) : (s.setRnd v).err = s.err := rfl
@[simp] theorem State.setRnd_errcode (s : State) (v : Option (Fin 11)) : (s.setRnd v).errcode = s.errcode := rfl
@[simp] theorem State.setRnd_captured (s : State) (v : Option (Fin 11)) : (s.setRnd v).captured = s.captured := rfl
@[simp] theorem State.setRnd_matrix (s : State) (v : Option (Fin 11)) : (s.setRnd v).matrix = s.matrix := rfl
@[simp] theorem State.setRnd_t (s : State) (v : Option (Fin 11)) : (s.setRnd v).t = s.t := rfl
@[simp] theorem State.setRnd_rnd (s : State) (v : Option (Fin 11)) : (s.setRnd v).rnd = v := rfl
@[simp] theorem State.setRnd_ki (s : State) (v : Option (Fin 11)) : (s.setRnd v).ki = s.ki := rfl
@[simp] theorem State.setRnd_port (s : State) (v : Option (Fin 11)) : (s.setRnd v).port = s.port := rfl

@[simp] theorem State.setKi_w (s : State) (v : Option (Fin 44)) : (s.setKi v).w = s.w := rfl
@[simp] theorem State.setKi_kvalid (s : State) (v : Option (Fin 44)) : (s.setKi v).kvalid = s.kvalid := rfl
@[simp] theorem State.setKi_dout (s : State) (v : Option (Fin 44)) : (s.setKi v).dout = s.dout := rfl
@[simp] theorem State.setKi_dvalid (s : State) (v : Option (Fin 44)) : (s.setKi v).dvalid = s.dvalid := rfl
@[simp] theorem State.setKi_err (s : State) (v : Option (Fin 44)) : (s.setKi v).err = s.err := rfl
@[simp] theorem State.setKi_errcode (s : State) (v : Option (Fin 44)) : (s.setKi v).errcode = s.errcode := rfl
@[simp] theorem State.setKi_captured (s : State) (v : Option (Fin 44)) : (s.setKi v).captured = s.captured := rfl
@[simp] theorem State.setKi_matrix (s : State) (v : Option (Fin 44)) : (s.setKi v).matrix = s.matrix := rfl
@[simp] theorem State.setKi_t (s : State) (v : Option (Fin 44)) : (s.setKi v).t = s.t := rfl
@[simp] theorem State.setKi_rnd (s : State) (v : Option (Fin 44)) : (s.setKi v).rnd = s.rnd := rfl
@[simp] theorem State.setKi_ki (s : State) (v : Option (Fin 44)) : (s.setKi v).ki = v := rfl
@[simp] theorem State.setKi_port (s : State) (v : Option (Fin 44)) : (s.setKi v).port = s.port := rfl

@[simp] theorem State.setPort_w (s : State) (v : List Transaction) : (s.setPort v).w = s.w := rfl
@[simp] theorem State.setPort_kvalid (s : State) (v : List Transaction) : (s.setPort v).kvalid = s.kvalid := rfl
@[simp] theorem State.setPort_dout (s : State) (v : List Transaction) : (s.setPort v).dout = s.dout := rfl
@[simp] theorem State.setPort_dvalid (s : State) (v : List Transaction) : (s.setPort v).dvalid = s.dvalid := rfl
@[simp] theorem State.setPort_err (s : State) (v : List Transaction) : (s.setPort v).err = s.err := rfl
@[simp] theorem State.setPort_errcode (s : State) (v : List Transaction) : (s.setPort v).errcode = s.errcode := rfl
@[simp] theorem State.setPort_captured (s : State) (v : List Transaction) : (s.setPort v).captured = s.captured := rfl
@[simp] theorem State.setPort_matrix (s : State) (v : List Transaction) : (s.setPort v).matrix = s.matrix := rfl
@[simp] theorem State.setPort_t (s : State) (v : List Transaction) : (s.setPort v).t = s.t := rfl
@[simp] theorem State.setPort_rnd (s : State) (v : List Transaction) : (s.setPort v).rnd = s.rnd := rfl
@[simp] theorem State.setPort_ki (s : State) (v : List Transaction) : (s.setPort v).ki = s.ki := rfl
@[simp] theorem State.setPort_port (s : State) (v : List Transaction) : (s.setPort v).port = v := rfl

/-- Two states that agree in every field are equal. -/
theorem State.ext_fields {a b : State} (hw : a.w = b.w) (hk : a.kvalid = b.kvalid) (hd : a.dout = b.dout)
    (hv : a.dvalid = b.dvalid) (he : a.err = b.err) (hc : a.errcode = b.errcode) (hcap : a.captured = b.captured)
    (hm : a.matrix = b.matrix) (ht : a.t = b.t) (hr : a.rnd = b.rnd) (hki : a.ki = b.ki) (hp : a.port = b.port) : a = b := by
  cases a
  cases b
  simp_all

/-- The fields of the block's reset: every one at its reset value, the host's coming transactions kept (R37). -/
theorem State.resetBlock_eq (s : State) : s.resetBlock =
    { w := Vector.replicate 44 none, kvalid := false, dout := none, dvalid := false, err := false, errcode := .noError,
      captured := none, matrix := none, t := none, rnd := none, ki := none, port := s.port } := rfl

end Sys2Proof.Machine
end

