-- ==== Sys2Proof/Laws/Ops.lean ====
section
/-! SUPPORT. Once for each shared operation, everything it can do: the refusal (60_exceptions.md R204, R205), the decode
checks (30_encoding.md R90), reads and writes of the schedule store, and the parts of a transaction. -/

namespace Sys2Proof.Machine

/-- A refusal with `ERR = 0`, and with `ERR = 1` (60_exceptions.md R204, R205). -/
theorem State.refuse_of_no_err {s : State} (h : s.err = false) (cause : ErrCode) : s.refuse cause = s.setError cause := by
  simp [State.refuse, h]
theorem State.refuse_of_err {s : State} (h : s.err = true) (cause : ErrCode) : s.refuse cause = s := by
  simp [State.refuse, h]

/-- The sticky check (60_exceptions.md R205). -/
theorem State.unlessErr_of_no_err {s : State} (h : s.err = false) (f : State → State) : s.unlessErr f = f s := by
  simp [State.unlessErr, h]
theorem State.unlessErr_of_err {s : State} (h : s.err = true) (f : State → State) : s.unlessErr f = s := by
  simp [State.unlessErr, h]

/-- The key check (60_exceptions.md R203). -/
theorem State.withKey_of_key {s : State} (h : s.kvalid = true) (f : State → State) : s.withKey f = f s := by
  simp [State.withKey, h]
theorem State.withKey_of_no_key {s : State} (h : s.kvalid = false) (f : State → State) :
    s.withKey f = s.refuse .nokey := by
  simp [State.withKey, h]

/-- A word read after a write of the store (00_scope.md 6.3). -/
theorem State.readWord_writeWord (s : State) (i j : Fin 44) (v : Option Word) :
    (s.writeWord i v).readWord j = if i = j then v else s.readWord j := by
  simp [State.readWord, State.writeWord, Vector.getElem_set, Fin.ext_iff]

/-- A store that holds a schedule is read as the schedule's words and round keys (10_state.md R21, R22). -/
theorem State.readWord_of_holds {s : State} {w : Schedule} (h : s.HoldsSchedule w) (i : Fin 44) :
    s.readWord i = some w[i] := by
  simp [State.readWord, show s.w = w.map some from h]
theorem State.readRoundKey_of_holds {s : State} {w : Schedule} (h : s.HoldsSchedule w) (n : Fin 11) :
    s.readRoundKey n = some (roundKey w n) := by
  simp [State.readRoundKey, State.readWord_of_holds h, roundKeyOfWords, roundKey]

/-- The round a round number names (60_exceptions.md R202). -/
theorem roundOfByte_eq_some {n : Byte} {r : Fin 11} : roundOfByte n = some r ↔ n.toNat = r.val := by
  unfold roundOfByte
  split
  · simp [Fin.ext_iff]
  · simp
    omega
theorem roundOfByte_eq_none {n : Byte} : roundOfByte n = none ↔ 10 < n.toNat := by
  unfold roundOfByte
  split <;> simp <;> omega

/-- The RDRK checks, in their order (30_encoding.md R90): a malformed operand, then the key. -/
theorem State.rdrkChecked_malformed {s : State} {reserved : BitVec 120} {n : Byte}
    (h : rdrkOperandOk reserved n = false) : s.rdrkChecked reserved n = s.refuse .badarg := by
  unfold State.rdrkChecked
  split <;> simp [h]
theorem State.rdrkChecked_ok {s : State} {reserved : BitVec 120} {n : Byte} {r : Fin 11}
    (h : rdrkOperandOk reserved n = true) (hr : roundOfByte n = some r) :
    s.rdrkChecked reserved n = s.withKey fun s => s.rdrkRun r := by
  simp [State.rdrkChecked, hr, h]

/-- A change applied to an outcome that is a next state. -/
@[simp] theorem onNext_next (f : State → State) (s : State) : onNext f (.next s) = .next (f s) := rfl

/-- What every command does, accepted or refused, as a next state: one line per instruction (R106, R124, R160). -/
theorem exec_expandkey (key : Block) (s : State) :
    exec (.expandkey key) s = .next (if s.err then s else s.kxRun key) := rfl
theorem exec_encrypt (input : Block) (s : State) :
    exec (.encrypt input) s = .next (if s.err then s else if s.kvalid then s.epRun input else s.refuse .nokey) := rfl
theorem exec_rdrk (reserved : BitVec 120) (n : Byte) (s : State) :
    exec (.rdrk reserved n) s = .next (if s.err then s else s.rdrkChecked reserved n) := rfl

/-- A step with nothing to do, with a reset, and with a command at the port. -/
theorem step_idle {s : State} (h : s.port = []) : step s = .next s := by
  simp [step, performNext, h]
theorem step_reset {s : State} {rest : List Transaction} (h : s.port = .reset :: rest) :
    step s = .next (s.setPort rest).resetBlock := by
  simp [step, performNext, h, perform]
theorem step_issue {s : State} {c : CmdWord} {rest : List Transaction} (h : s.port = .issue c :: rest) :
    step s = onNext State.endCommand (runCommand c ((s.setPort rest).setCaptured (some c))) := by
  simp [step, performNext, h, perform, issue, runCaptured]

end Sys2Proof.Machine
end

