-- ==== Sys2Proof/Laws/Datapath.lean ====
section
/-! SUPPORT. Once for each unit, everything one of its steps can do: the key expander (40_key_expansion.md R101) changes
`W`, `t` and `KI` only; the encryption pipeline (41_encrypt_block.md R125) changes `S`, `RND`, and at the store `DOUT` and
`DVALID`, only. -/

namespace Sys2Proof.Machine

/-- Reads of the store see none of the transient elements. -/
@[simp] theorem State.readWord_setT (s : State) (v : Option Word) (i : Fin 44) : (s.setT v).readWord i = s.readWord i := rfl
@[simp] theorem State.readWord_setKi (s : State) (v : Option (Fin 44)) (i : Fin 44) :
    (s.setKi v).readWord i = s.readWord i := rfl

/-- One word of the key expander: `t` gets the temporary's value, `W[i]` that of `W[i-4] xor t` (R101). -/
theorem State.kxWord_eq (s : State) (i : Fin 44) : s.kxWord i =
    (s.setT ((s.readWord (previous i)).map (expandTemp i))).writeWord i
      (xorValues (s.readWord (fourBack i)) ((s.readWord (previous i)).map (expandTemp i))) := by
  by_cases h : i.val % 4 = 0
  · have e : expandTemp i = addRcon (rconIndex i) ∘ subWord ∘ rotWord := by
      funext t
      simp [expandTemp, h]
    simp [State.kxWord, State.kxTransform, h, e, State.writeWord, State.setT, State.setW, State.readWord]
  · have e : expandTemp i = id := by
      funext t
      simp [expandTemp, h]
    simp [State.kxWord, h, e]

/-- What the key expander leaves alone, whatever the number of turns (R106). -/
theorem State.kxStep_frame (s : State) : s.kxStep.kvalid = s.kvalid ∧ s.kxStep.dout = s.dout ∧ s.kxStep.dvalid = s.dvalid ∧
    s.kxStep.err = s.err ∧ s.kxStep.errcode = s.errcode ∧ s.kxStep.captured = s.captured ∧ s.kxStep.matrix = s.matrix ∧
    s.kxStep.rnd = s.rnd ∧ s.kxStep.port = s.port := by
  unfold State.kxStep
  split
  · simp
  · simp [State.kxWord_eq, State.writeWord]
theorem State.kxLoop_frame (n : Nat) : ∀ s : State, (s.kxLoop n).kvalid = s.kvalid ∧ (s.kxLoop n).dout = s.dout ∧
    (s.kxLoop n).dvalid = s.dvalid ∧ (s.kxLoop n).err = s.err ∧ (s.kxLoop n).errcode = s.errcode ∧
    (s.kxLoop n).captured = s.captured ∧ (s.kxLoop n).matrix = s.matrix ∧ (s.kxLoop n).rnd = s.rnd ∧
    (s.kxLoop n).port = s.port := by
  induction n with
  | zero => simp [State.kxLoop]
  | succ m ih =>
    intro s
    obtain ⟨h1, h2, h3, h4, h5, h6, h7, h8, h9⟩ := ih s.kxStep
    obtain ⟨k1, k2, k3, k4, k5, k6, k7, k8, k9⟩ := s.kxStep_frame
    simp_all [State.kxLoop]

/-- EXPANDKEY, accepted, leaves `ERR` alone (R106). -/
@[simp] theorem State.kxRun_err (s : State) (key : Block) : (s.kxRun key).err = s.err := by
  rw [State.kxRun, State.setKi_err, State.setT_err, State.setKvalid_err, (State.kxLoop_frame 40 _).2.2.2.1]
  rfl

/-- What a step of the encryption pipeline leaves alone (R123, R124). -/
theorem State.epStep_frame (input : Block) (s : State) (e : EpStep) :
    (s.epStep input e).w = s.w ∧ (s.epStep input e).kvalid = s.kvalid ∧ (s.epStep input e).err = s.err ∧
      (s.epStep input e).errcode = s.errcode ∧ (s.epStep input e).captured = s.captured ∧
      (s.epStep input e).t = s.t ∧ (s.epStep input e).ki = s.ki ∧ (s.epStep input e).port = s.port := by
  cases e <;> simp [State.epStep, State.writeResult]
theorem State.epRun_frame (input : Block) (s : State) : (s.epRun input).w = s.w ∧ (s.epRun input).kvalid = s.kvalid ∧
    (s.epRun input).err = s.err ∧ (s.epRun input).errcode = s.errcode ∧ (s.epRun input).captured = s.captured ∧
    (s.epRun input).t = s.t ∧ (s.epRun input).ki = s.ki ∧ (s.epRun input).port = s.port := by
  unfold State.epRun
  induction epProgram generalizing s with
  | nil => simp
  | cons e rest ih =>
    obtain ⟨h1, h2, h3, h4, h5, h6, h7, h8⟩ := ih (s.epStep input e)
    obtain ⟨k1, k2, k3, k4, k5, k6, k7, k8⟩ := s.epStep_frame input e
    simp_all

/-- AddRoundKey on a state with a matrix, a round and a schedule (42_round_transformations.md R146). -/
theorem State.epStep_addRoundKey {s : State} {w : Schedule} {g : Grid} {n : Fin 11} (input : Block)
    (hw : s.HoldsSchedule w) (hm : s.matrix = some g) (hr : s.rnd = some n) :
    s.epStep input .addRoundKey = (s.setMatrix (some (Grid.addRoundKey (roundKey w n) g))).setRnd (nextRnd n) := by
  simp [State.epStep, hr, hm, State.readRoundKey_of_holds hw, addRoundKeyValues]

end Sys2Proof.Machine
end

