-- ==== Sys2Proof/Laws/Client.lean ====
section
/-! SUPPORT. What the reference client's functions can answer, said once (44_reference_client.md). -/

namespace Sys2Proof.Machine

@[simp] theorem GenerateAnswer.after_bytes (out earlier : List Byte) (c : Client) (s : State) :
    (GenerateAnswer.bytes out c s).after earlier = .bytes (earlier ++ out) c s := rfl
@[simp] theorem GenerateAnswer.after_failed (e : ClientError) (written earlier : List Byte) (c : Client) (s : State) :
    (GenerateAnswer.failed e written c s).after earlier = .failed e (earlier ++ written) c s := rfl
@[simp] theorem GenerateAnswer.after_noMeaning (earlier : List Byte) : GenerateAnswer.noMeaning.after earlier = .noMeaning := rfl

/-- `encryptBlock` leaves the key alone, accepted or refused (R176). -/
theorem clientEncrypt_frame (s : State) (x : Block) :
    (clientEncrypt s x).1.w = s.w ∧ (clientEncrypt s x).1.kvalid = s.kvalid := by
  obtain ⟨hw, hk, -⟩ := State.epRun_frame x s
  by_cases he : s.err = true
  · simp [clientEncrypt, exec_encrypt, he]
  by_cases hv : s.kvalid = true
  · simp [clientEncrypt, exec_encrypt, he, hv, hw, hk]
  · simp [clientEncrypt, exec_encrypt, he, hv, State.refuse]

/-- Either every block was emitted and the Generator is ready, or one failed and it is spent (R180, R186). -/
theorem generateBlocks_cases (k : Nat) : ∀ (n : Nat) (g : Generator) (s : State),
    (∃ out g' s', generateBlocks k n g s = .bytes out (.ready g') s') ∨
    (∃ e written g' s', generateBlocks k n g s = .failed e written (.spent g') s') := by
  induction k with
  | zero => exact fun n g s => .inl ⟨[], g, s, rfl⟩
  | succ m ih =>
    intro n g s
    rw [generateBlocks]
    split
    · exact .inr ⟨_, _, _, _, rfl⟩
    · rename_i rand g' s' _
      obtain ⟨out, g2, s2, h⟩ | ⟨e, written, g2, s2, h⟩ := ih (n - 16) g' s'
      · exact .inl ⟨_, g2, s2, by rw [h, GenerateAnswer.after_bytes]⟩
      · exact .inr ⟨e, _, g2, s2, by rw [h, GenerateAnswer.after_failed]⟩

/-- The first use on a block with `ERR = 0`: EXPANDKEY of the default key is accepted, and the registers are the initial
ones (R172, R187). -/
theorem generate_fresh (n : Nat) (dt : Block) {s : State} (h : s.err = false) : generate n .fresh dt s =
    generateBlocks ((n + 15) / 16) n (initialGenerator none dt) (s.kxRun defaultKey) := by
  simp [generate, clientInitialize, exec_expandkey, h]

end Sys2Proof.Machine
end

