-- ==== Sys2Proof/Laws/Operands.lean ====
section
/-! SUPPORT. Byte order: the bytes of a block or word that is built from bytes, and equality by bytes (00_scope.md R7, R8);
the elements of a matrix, and equality by elements. -/

namespace Sys2Proof.Machine

/-- The bits of a word built from bytes, and of a block built from words (00_scope.md R7, R8). -/
theorem getLsbD_wordOfBytes (a b c d : Byte) (i : Nat) : (wordOfBytes a b c d).getLsbD i =
    if i < 8 then d.getLsbD i else if i < 16 then c.getLsbD (i - 8) else if i < 24 then b.getLsbD (i - 16)
    else a.getLsbD (i - 24) := by
  have e : (wordOfBytes a b c d).getLsbD i = (a ++ b ++ c ++ d : BitVec (8 + 8 + 8 + 8)).getLsbD i := rfl
  rw [e, BitVec.getLsbD_append, BitVec.getLsbD_append, BitVec.getLsbD_append]
  grind
theorem getLsbD_blockOfWords (a b c d : Word) (i : Nat) : (blockOfWords a b c d).getLsbD i =
    if i < 32 then d.getLsbD i else if i < 64 then c.getLsbD (i - 32) else if i < 96 then b.getLsbD (i - 64)
    else a.getLsbD (i - 96) := by
  have e : (blockOfWords a b c d).getLsbD i = (a ++ b ++ c ++ d : BitVec (32 + 32 + 32 + 32)).getLsbD i := rfl
  rw [e, BitVec.getLsbD_append, BitVec.getLsbD_append, BitVec.getLsbD_append]
  grind

/-- The byte at offset `k` of the block of the bytes `f` is `f k` (00_scope.md R7). -/
@[simp] theorem blockByte_blockOfBytes (f : Fin 16 → Byte) (k : Fin 16) : blockByte (blockOfBytes f) k = f k := by
  apply BitVec.eq_of_getLsbD_eq
  intro i hi
  rw [blockByte, BitVec.getLsbD_extractLsb', blockOfBytes, getLsbD_blockOfWords]
  simp only [getLsbD_wordOfBytes]
  fin_cases k <;> simp [hi] <;> grind

/-- Two blocks with equal bytes are equal. -/
theorem block_ext {a b : Block} (h : ∀ k, blockByte a k = blockByte b k) : a = b := by
  apply BitVec.eq_of_getLsbD_eq
  intro i hi
  have hk := congrArg (fun x : Byte => x.getLsbD (i % 8)) (h ⟨15 - i / 8, by omega⟩)
  have h8 : i % 8 < 8 := by omega
  have hidx : 120 - 8 * (15 - i / 8) + i % 8 = i := by omega
  simpa [blockByte, h8, hidx] using hk

/-- The bytes of a word built from four bytes (00_scope.md R8). -/
@[simp] theorem wordByte_wordOfBytes_0 (a b c d : Byte) : wordByte (wordOfBytes a b c d) 0 = a := by
  apply BitVec.eq_of_getLsbD_eq
  intro i hi
  rw [wordByte, BitVec.getLsbD_extractLsb', getLsbD_wordOfBytes]
  simp [hi]
  grind
@[simp] theorem wordByte_wordOfBytes_1 (a b c d : Byte) : wordByte (wordOfBytes a b c d) 1 = b := by
  apply BitVec.eq_of_getLsbD_eq
  intro i hi
  rw [wordByte, BitVec.getLsbD_extractLsb', getLsbD_wordOfBytes]
  simp [hi]
  grind
@[simp] theorem wordByte_wordOfBytes_2 (a b c d : Byte) : wordByte (wordOfBytes a b c d) 2 = c := by
  apply BitVec.eq_of_getLsbD_eq
  intro i hi
  rw [wordByte, BitVec.getLsbD_extractLsb', getLsbD_wordOfBytes]
  simp [hi]
  grind
@[simp] theorem wordByte_wordOfBytes_3 (a b c d : Byte) : wordByte (wordOfBytes a b c d) 3 = d := by
  apply BitVec.eq_of_getLsbD_eq
  intro i hi
  rw [wordByte, BitVec.getLsbD_extractLsb', getLsbD_wordOfBytes]
  simp [hi]

/-- Two words with equal bytes are equal. -/
theorem word_ext {a b : Word} (h : ∀ j, wordByte a j = wordByte b j) : a = b := by
  apply BitVec.eq_of_getLsbD_eq
  intro i hi
  have hk := congrArg (fun x : Byte => x.getLsbD (i % 8)) (h ⟨3 - i / 8, by omega⟩)
  have h8 : i % 8 < 8 := by omega
  have hidx : 24 - 8 * (3 - i / 8) + i % 8 = i := by omega
  simpa [wordByte, h8, hidx] using hk

/-- A byte of an XOR of words, and of blocks. -/
@[simp] theorem wordByte_xor (a b : Word) (j : Fin 4) : wordByte (a ^^^ b) j = wordByte a j ^^^ wordByte b j := by
  apply BitVec.eq_of_getLsbD_eq
  intro i hi
  simp [wordByte, hi]
@[simp] theorem blockByte_xor (a b : Block) (k : Fin 16) : blockByte (a ^^^ b) k = blockByte a k ^^^ blockByte b k := by
  apply BitVec.eq_of_getLsbD_eq
  intro i hi
  simp [blockByte, hi]

/-- Row and column of an offset (20_memory.md R56). -/
@[simp] theorem offsetRow_offset (r c : Fin 4) : offsetRow (offset r c) = r := by
  ext
  simp only [offsetRow, offset]
  omega
@[simp] theorem offsetCol_offset (r c : Fin 4) : offsetCol (offset r c) = c := by
  ext
  simp only [offsetCol, offset]
  omega
@[simp] theorem offset_row_col (k : Fin 16) : offset (offsetRow k) (offsetCol k) = k := by
  ext
  simp only [offset, offsetRow, offsetCol]
  omega

/-- The elements of a matrix given by a function. -/
@[simp] theorem Grid.at_ofFn (f : Fin 4 → Fin 4 → Byte) (r c : Fin 4) : Grid.at (Grid.ofFn f) r c = f r c := by
  simp [Grid.at, Grid.ofFn]

/-- Two matrices with equal elements are equal. -/
theorem Grid.ext_at {a b : Grid} (h : ∀ r c, Grid.at a r c = Grid.at b r c) : a = b := by
  apply Vector.ext
  intro r hr
  apply Vector.ext
  intro c hc
  exact h ⟨r, hr⟩ ⟨c, hc⟩

/-- The elements after each transformation (42_round_transformations.md R143 to R146), LoadState and StoreState (R120, R123). -/
@[simp] theorem Grid.at_load (b : Block) (r c : Fin 4) : Grid.at (Grid.load b) r c = blockByte b (offset r c) := by
  simp [Grid.load]
@[simp] theorem blockByte_store (g : Grid) (k : Fin 16) :
    blockByte (Grid.store g) k = Grid.at g (offsetRow k) (offsetCol k) := by
  simp [Grid.store]
@[simp] theorem Grid.at_subBytes (g : Grid) (r c : Fin 4) : Grid.at (Grid.subBytes g) r c = sbox (Grid.at g r c) := by
  simp [Grid.subBytes]
@[simp] theorem Grid.at_shiftRows (g : Grid) (r c : Fin 4) : Grid.at (Grid.shiftRows g) r c = Grid.at g r (c + r) := by
  simp [Grid.shiftRows]
@[simp] theorem Grid.at_mixColumns (g : Grid) (r c : Fin 4) :
    Grid.at (Grid.mixColumns g) r c = mixByte r (Grid.at g 0 c) (Grid.at g 1 c) (Grid.at g 2 c) (Grid.at g 3 c) := by
  simp [Grid.mixColumns]
@[simp] theorem Grid.at_addRoundKey (rk : RoundKey) (g : Grid) (r c : Fin 4) :
    Grid.at (Grid.addRoundKey rk g) r c = Grid.at g r c ^^^ wordByte rk[c] r := by
  simp [Grid.addRoundKey]
@[simp] theorem blockByte_toBlock (rk : RoundKey) (k : Fin 16) :
    blockByte (RoundKey.toBlock rk) k = wordByte rk[offsetCol k] (offsetRow k) := by
  simp [RoundKey.toBlock]

end Sys2Proof.Machine
end

