-- ==== Sys2Proof/Laws/PerInstr.lean ====
section
/-! SUPPORT. Statements about every instruction, made per constructor (LAWS.json). -/

namespace Sys2Proof.Laws

/-- The opcode field of an instruction's command word is its opcode, and no reserved one (30_encoding.md R81, R83). -/
def OpcodeField.Statement (i : Instr) : Prop :=
  cmdOp (encode i) = i.opcode ∧ i.opcode ∈ ([0x01, 0x02, 0x03] : List Byte)

/-- The fields of the word of `issue(op, operand)` (R80, R81). -/
@[simp] theorem cmdOp_cmdWord (op : Byte) (operand : Block) : cmdOp (cmdWord op operand) = op := by
  apply BitVec.eq_of_getLsbD_eq
  intro i hi
  have e (j : Nat) : (cmdWord op operand).getLsbD j = (op ++ operand : BitVec (8 + 128)).getLsbD j := rfl
  rw [cmdOp, BitVec.getLsbD_extractLsb', e, BitVec.getLsbD_append]
  simp [hi]
@[simp] theorem cmdOperand_cmdWord (op : Byte) (operand : Block) : cmdOperand (cmdWord op operand) = operand := by
  apply BitVec.eq_of_getLsbD_eq
  intro i hi
  have e (j : Nat) : (cmdWord op operand).getLsbD j = (op ++ operand : BitVec (8 + 128)).getLsbD j := rfl
  rw [cmdOperand, BitVec.getLsbD_extractLsb', e, BitVec.getLsbD_append]
  simp [hi]

theorem OpcodeField.expandkey (key : Block) : OpcodeField.Statement (.expandkey key) := by
  simp [OpcodeField.Statement, encode, Instr.opcode]

theorem OpcodeField.encrypt (input : Block) : OpcodeField.Statement (.encrypt input) := by
  simp [OpcodeField.Statement, encode, Instr.opcode]

theorem OpcodeField.rdrk (reserved : BitVec 120) (n : Byte) : OpcodeField.Statement (.rdrk reserved n) := by
  simp [OpcodeField.Statement, encode, Instr.opcode]

end Sys2Proof.Laws
end

