-- ==== Sys2Proof/Laws/Step.lean ====
section
/-! SUPPORT. What a command, a transaction and a step can do, said once: later proofs take these cases instead of
unfolding the step. -/

namespace Sys2Proof.Machine

/-- Every command answers a next state. -/
theorem exec_next (i : Instr) (s : State) : ∃ t, exec i s = .next t := by
  cases i <;> exact ⟨_, rfl⟩

/-- While `ERR = 1` no command changes anything (60_exceptions.md R205). -/
theorem exec_of_err (i : Instr) {s : State} (h : s.err = true) : exec i s = .next s := by
  cases i <;> simp [exec_expandkey, exec_encrypt, exec_rdrk, h]

/-- A command that answers `t` did nothing because of the sticky error, ran one of the three commands, or refused with
BADARG (RDRK) or NOKEY. -/
theorem exec_cases {i : Instr} {s t : State} (h : exec i s = .next t) :
    (s.err = true ∧ t = s) ∨
    (∃ key, i = .expandkey key ∧ s.err = false ∧ t = s.kxRun key) ∨
    (∃ input, i = .encrypt input ∧ s.err = false ∧ s.kvalid = true ∧ t = s.epRun input) ∨
    (∃ reserved n r, i = .rdrk reserved n ∧ roundOfByte n = some r ∧ rdrkOperandOk reserved n = true ∧ s.err = false ∧
      s.kvalid = true ∧ t = s.rdrkRun r) ∨
    (∃ reserved n, i = .rdrk reserved n ∧ rdrkOperandOk reserved n = false ∧ s.err = false ∧ t = s.setError .badarg) ∨
    (i.opcode ≠ 0x01 ∧ i.wellFormed = true ∧ s.err = false ∧ s.kvalid = false ∧ t = s.setError .nokey) := by
  by_cases he : s.err = true
  · rw [exec_of_err i he] at h
    cases h
    exact .inl ⟨he, rfl⟩
  have he : s.err = false := by simpa using he
  cases i with
  | expandkey key =>
    rw [exec_expandkey] at h
    cases h
    exact .inr (.inl ⟨key, rfl, he, by simp [he]⟩)
  | encrypt input =>
    rw [exec_encrypt] at h
    cases h
    by_cases hk : s.kvalid = true
    · exact .inr (.inr (.inl ⟨input, rfl, he, hk, by simp [he, hk]⟩))
    · have hk : s.kvalid = false := by simpa using hk
      exact .inr (.inr (.inr (.inr (.inr ⟨by simp [Instr.opcode], rfl, he, hk, by simp [he, hk, State.refuse_of_no_err he]⟩))))
  | rdrk reserved n =>
    rw [exec_rdrk] at h
    cases h
    cases hok : rdrkOperandOk reserved n with
    | false =>
      refine .inr (.inr (.inr (.inr (.inl ⟨reserved, n, rfl, hok, he, ?_⟩))))
      simp [he, State.rdrkChecked_malformed hok, State.refuse_of_no_err he]
    | true =>
      have hn : n.toNat ≤ 10 := by
        simp [rdrkOperandOk] at hok
        exact hok.2
      have hr : roundOfByte n = some ⟨n.toNat, by omega⟩ := roundOfByte_eq_some.2 rfl
      by_cases hk : s.kvalid = true
      · refine .inr (.inr (.inr (.inl ⟨reserved, n, _, rfl, hr, hok, he, hk, ?_⟩)))
        simp [he, State.rdrkChecked_ok hok hr, State.withKey_of_key hk]
      · have hk : s.kvalid = false := by simpa using hk
        refine .inr (.inr (.inr (.inr (.inr ⟨by simp [Instr.opcode], hok, he, hk, ?_⟩))))
        simp [he, State.rdrkChecked_ok hok hr, State.withKey_of_no_key hk, State.refuse_of_no_err he]

/-- A transaction that answers `t`: a reset, a command that decodes, or a reserved opcode. -/
theorem perform_cases {tr : Transaction} {s t : State} (h : perform tr s = .next t) :
    (tr = .reset ∧ t = s.resetBlock) ∨
    (∃ c i u, tr = .issue c ∧ decode c = .ok i ∧ exec i (s.setCaptured (some c)) = .next u ∧ t = u.endCommand) ∨
    (∃ c op, tr = .issue c ∧ decode c = .error (.reservedOpcode op) ∧
      t = ((s.setCaptured (some c)).refuse .badcmd).endCommand) := by
  cases tr with
  | reset =>
    cases h
    exact .inl ⟨rfl, rfl⟩
  | issue c =>
    simp only [perform, issue, runCaptured, State.setCaptured_captured, runCommand] at h
    split at h
    · rename_i i hi
      obtain ⟨u, hu⟩ := exec_next i (s.setCaptured (some c))
      rw [hu, onNext_next] at h
      cases h
      exact .inr (.inl ⟨c, i, u, rfl, hi, hu, rfl⟩)
    · rename_i op hop
      rw [onNext_next] at h
      cases h
      exact .inr (.inr ⟨c, op, rfl, hop, rfl⟩)

/-- A step that answers `t`: no transaction, or the next one performed on the state without it. -/
theorem step_cases {s t : State} (h : step s = .next t) :
    (s.port = [] ∧ t = s) ∨ (∃ tr rest, s.port = tr :: rest ∧ perform tr (s.setPort rest) = .next t) := by
  unfold step performNext at h
  split at h
  · rename_i hp
    cases h
    exact .inl ⟨hp, rfl⟩
  · rename_i tr rest hp
    exact .inr ⟨tr, rest, hp, h⟩

end Sys2Proof.Machine
end

