-- ==== Sys2Proof/Tests/Slice0.lean ====
section
/-! SUPPORT. Tests with results taken from 95_test_vectors.md and from the rules' own examples, and for each statement
with hypotheses a witness that meets them. -/

namespace Sys2Proof.Tests

open Sys2Proof Sys2Proof.Machine

/-! ### Well-formedness, decoding, encoding -/

theorem test_wf_rdrk_reserved : (Instr.rdrk 1 0).wellFormed = false := by decide
theorem test_wf_rdrk_round : (Instr.rdrk 0 11).wellFormed = false := by decide
theorem test_wf_accepts : ([.expandkey 0, .encrypt 0, .rdrk 0 10] : List Instr).all Instr.wellFormed = true := by decide

/-- `EXPANDKEY`: op bits 00000001, key byte 0 in bits 127:120 (30_encoding.md R81, R84). -/
theorem test_decode_expandkey :
    decode (0b00000001#8 ++ 0b11111111#8 ++ 0#112 ++ 0b00000001#8) = .ok (.expandkey 0xff000000000000000000000000000001) := by decide
/-- `ENCRYPT`: op bits 00000010, the operand whole (R85). -/
theorem test_decode_encrypt :
    decode (0b00000010#8 ++ 0b10000000#8 ++ 0#112 ++ 0b00001111#8) = .ok (.encrypt 0x8000000000000000000000000000000f) := by decide
/-- `RDRK`: op bits 00000011, reserved bits 127:8, round number in bits 7:0 (R86). -/
theorem test_decode_rdrk : decode (0b00000011#8 ++ 0#120 ++ 0b00001010#8) = .ok (.rdrk 0 10) := by decide
/-- The malformed words of V20 and V22 are still RDRK (R86). -/
theorem test_decode_rdrk_malformed : decode 0x038000000000000000000000000000000a = .ok (.rdrk 0x800000000000000000000000000000 10) := by decide
/-- Reserved opcodes at both ends of their ranges (R83). -/
theorem test_decode_reserved : ([0x00, 0x04, 0xff] : List Byte).all
    (fun op => decodeTableWord 136 (cmdWord op 0).toNat == none) = true := by decide
/-- The encoder against V20's words. -/
theorem test_encode : encode (.expandkey 0x000102030405060708090a0b0c0d0e0f) = 0x01000102030405060708090a0b0c0d0e0f ∧
    encode (.encrypt 0x00112233445566778899aabbccddeeff) = 0x0200112233445566778899aabbccddeeff ∧
    encode (.rdrk 0 10) = 0x030000000000000000000000000000000a := by decide

/-! ### One step on a small state -/

/-- The next state of an outcome. -/
def nextOf (o : Host.Outcome State Fault Refusal) : Option State :=
  match o with
  | .next s => some s
  | _ => none

/-- The block after an accepted EXPANDKEY from reset (40_key_expansion.md R106). -/
def keyed (key : Block) : State := { State.reset with w := (keyExpansion key).map some, kvalid := true }

/-- A block that refused a command with NOKEY (60_exceptions.md R203). -/
def refused : State := { State.reset with err := true, errcode := .nokey }

/-- One step with a command word presented. -/
def after (s : State) (c : CmdWord) : Option State := nextOf (step (s.presentNext (.issue c)))

/-- The key of V1 and V2. -/
def vectorKey : Block := 0x000102030405060708090a0b0c0d0e0f

/-- V2: words 4 and 43, by the key expander's own steps. -/
theorem test_expandkey_words : ((after State.reset 0x01000102030405060708090a0b0c0d0e0f).map fun s =>
    (s.readWord 4, s.readWord 43)) = some (some 0xd6aa74fd, some 0x4d2b30c5) := by decide +kernel
/-- V22 row 2: EXPANDKEY sets KVALID only. -/
theorem test_expandkey_status : ((after State.reset 0x01000102030405060708090a0b0c0d0e0f).map fun s =>
    (s.status, s.observeDout, s.t, s.ki)) = some (0x01, none, none, none) := by decide +kernel
/-- V1: the document's known answer. -/
theorem test_encrypt_known_answer : ((after (keyed vectorKey) 0x0200112233445566778899aabbccddeeff).map fun s =>
    (s.observeDout, s.status)) = some (some 0x69c4e0d86a7b0430d8cdb78070b4c55a, 0x03) := by decide +kernel
/-- V22 row 4: ENCRYPT without a key. -/
theorem test_encrypt_nokey : ((after State.reset 0x0200112233445566778899aabbccddeeff).map fun s =>
    (s.status, s.observeDout)) = some (0x1c, none) := by decide
/-- V21: round key 10. -/
theorem test_rdrk_last : ((after (keyed vectorKey) 0x030000000000000000000000000000000a).map State.observeDout) =
    some (some 0x13111d7fe3944a17f307a78b4d2b30c5) := by decide +kernel
/-- V22 row 6: BADARG before NOKEY. -/
theorem test_rdrk_badarg_first : ((after State.reset 0x030000000000000000000000000000000b).map State.status) = some 0x14 := by decide
/-- V22 row 9: a reserved opcode. -/
theorem test_badcmd : ((after State.reset 0xff00000000000000000000000000000000).map State.status) = some 0x0c := by decide
/-- P2 line 3: after NOKEY an EXPANDKEY is ignored. -/
theorem test_sticky : after refused 0x01000102030405060708090a0b0c0d0e0f = some refused := by decide
/-- V22 row 18: reset clears ERR. -/
theorem test_reset : nextOf (step (refused.presentNext .reset)) = some State.reset := by decide

/-! ### The parts of a command -/

/-- V14 and V15: the reduction at 0x80, and a column. -/
theorem test_mul : (mul2 0x80, mul3 0x80, mul2 0x7f, mul3 0x57) = (0x1b, 0x9b, 0xfe, 0xf9) := by decide
theorem test_mix_column : (List.finRange 4).map (fun r => mixByte r 0xdb 0x13 0x53 0x45) = [0x8e, 0x4d, 0xa1, 0xbc] := by decide
/-- V13: the S-box at row and column ends. -/
theorem test_sbox : ([0x00, 0x0f, 0x53, 0xf0, 0xff] : List Byte).map sbox = [0x63, 0x76, 0xed, 0x8c, 0x16] := by decide
/-- R54: `RCON[1] = 0x01`, each next constant the `xtime` of the one before. -/
theorem test_rcon : rcon 0 = 0x01 ∧ ∀ k : Fin 9, rcon k.succ = xtime (rcon k.castSucc) := by decide
/-- R125: 42 steps; R121: 11 AddRoundKey, 10 SubBytes, 10 ShiftRows, 9 MixColumns. -/
theorem test_pipeline_steps : (epProgram.length, epProgram.count .addRoundKey, epProgram.count .subBytes,
    epProgram.count .shiftRows, epProgram.count .mixColumns) = (42, 11, 10, 10, 9) := by decide
/-- V16: ShiftRows of the block of offsets. -/
theorem test_shift_rows : Grid.store (Grid.shiftRows (Grid.load 0x000102030405060708090a0b0c0d0e0f)) =
    0x00050a0f04090e03080d02070c01060b := by decide +kernel
/-- E1: the document's own wraparound cases of the client's counter. -/
theorem test_increment : incrementDt 0xffffffffffffffffffffffffffffffff = 0 ∧ incrementDt 0xff = 0x100 := by decide +kernel

/-! ### Witnesses: for each statement with hypotheses, a state and operands that meet them together -/

/-- The keyed block meets the hypotheses of an accepted command, with any key. -/
theorem keyed_holds (key : Block) : (keyed key).HoldsSchedule (keyExpansion key) := rfl
theorem keyed_inv (key : Block) : (keyed key).Inv := by
  refine ⟨⟨fun _ => ⟨key, rfl⟩, ?_⟩, ⟨rfl, ?_⟩, ⟨?_, ?_⟩, rfl, rfl, rfl, rfl, rfl⟩ <;> simp [keyed, State.reset]

theorem witness_EncodeDecodeRoundTrip : decode 0x030000000000000000000000000000000a = .ok (.rdrk 0 10) := by decide
theorem witness_StepRunsDecodedCommand :
    (State.presentNext State.reset (.issue (encode (.rdrk 0 10)))).port = .issue (encode (.rdrk 0 10)) :: [] ∧
      decode (encode (.rdrk 0 10)) = .ok (.rdrk 0 10) := by decide
theorem witness_StepTakesNextTransaction : (State.presentNext refused .reset).port = .reset :: [] ∧ State.reset.port = [] := by decide
theorem witness_ResetTransaction : State.reset.port = [] := by decide
/-- Each clause of the decode order: sticky; BADCMD at 0x00, 0x04 and 0xff; BADARG at n = 11 and at operand bit 8; NOKEY; executed at n = 10. -/
theorem witness_DecodeOrder_sticky : refused.err = true := by decide
theorem witness_DecodeOrder_badcmd : State.reset.err = false ∧
    ([0x00, 0x04, 0xff] : List Byte).all (fun op => op != 0x01 && op != 0x02 && op != 0x03) = true := by decide
theorem witness_DecodeOrder_badarg : (0x0b : Block).extractLsb' 8 120 = 0 ∧ 10 < ((0x0b : Block).extractLsb' 0 8).toNat ∧
    (0x100 : Block).extractLsb' 8 120 ≠ 0 := by decide
theorem witness_DecodeOrder_nokey : (0x0a : Block).extractLsb' 8 120 = 0 ∧ ¬ 10 < ((0x0a : Block).extractLsb' 0 8).toNat ∧
    State.reset.kvalid = false := by decide
theorem witness_DecodeOrder_executed : (keyed 0).err = false ∧ (keyed 0).kvalid = true := ⟨rfl, rfl⟩
theorem witness_ExpandkeyInstallsSchedule : State.reset.err = false ∧ refused.err = true := by decide
theorem witness_ExpandkeyFrame : ∃ t, exec (.expandkey 1) (keyed 0) = .next t := ⟨_, rfl⟩
theorem witness_EncryptComputesCipher : (keyed 0).err = false ∧ (keyed 0).kvalid = true ∧
    (keyed 0).HoldsSchedule (keyExpansion 0) := ⟨rfl, rfl, rfl⟩
theorem witness_EncryptComputesCipher_nokey : State.reset.err = false ∧ State.reset.kvalid = false ∧ refused.err = true := by decide
theorem witness_EncryptFrame : ∃ t, exec (.encrypt 0) (keyed 0) = .next t := ⟨_, rfl⟩
/-- RDRK accepted at both ends of its range, malformed just above it and at operand bit 8, and without a key. -/
theorem witness_RdrkReadsRoundKey (r : Fin 11) : (keyed 0).err = false ∧ (keyed 0).kvalid = true ∧
    (keyed 0).HoldsSchedule (keyExpansion 0) ∧ (0 : BitVec 120) = 0 ∧ (BitVec.ofNat 8 r.val).toNat = r.val :=
  ⟨rfl, rfl, rfl, rfl, by simp; omega⟩
theorem witness_RdrkReadsRoundKey_badarg : (keyed 0).err = false ∧ (1 : BitVec 120) ≠ 0 ∧ 10 < (11 : Byte).toNat := by decide
theorem witness_RdrkReadsRoundKey_nokey : State.reset.err = false ∧ (10 : Byte).toNat ≤ 10 ∧ State.reset.kvalid = false ∧
    refused.err = true := by decide
theorem witness_RdrkFrame : ∃ t, exec (.rdrk 0 0) (keyed 0) = .next t := ⟨_, rfl⟩
theorem witness_RdrkDeliversExpandedKey : State.reset.err = false := by decide
theorem witness_BadcmdRaised : State.reset.err = false ∧ 0x04 ≤ (0x04 : Byte).toNat ∧ 0x04 ≤ (0xff : Byte).toNat := by decide
theorem witness_BadargRaised : State.reset.err = false ∧ (1 : BitVec 120) ≠ 0 ∧ 10 < (11 : Byte).toNat ∧
    exec (.expandkey 0) { refused with errcode := .badarg } = .next { refused with errcode := .badarg } := ⟨rfl, by decide, by decide, rfl⟩
theorem witness_NokeyRaised : (Instr.rdrk 0 10).wellFormed = true ∧ (Instr.rdrk 0 10).opcode ≠ 0x01 ∧
    State.reset.err = false ∧ State.reset.kvalid = false ∧ exec (.expandkey 0) refused = .next refused :=
  ⟨by decide, by decide, rfl, rfl, rfl⟩
theorem witness_StickyErrorRefusesAll : refused.err = true := by decide
theorem witness_RefusalIsPrecise : State.reset.err = false ∧
    ∃ t, perform (.issue 0) State.reset = .next t ∧ t.err = true := ⟨rfl, _, rfl, rfl⟩
theorem witness_OnlyExpandkeyWritesSchedule_expandkey :
    (∃ t, perform (.issue (encode (.expandkey 1))) (keyed 0) = .next t) ∧ (keyed 0).err = false := ⟨⟨_, rfl⟩, rfl⟩
theorem witness_OnlyExpandkeyWritesSchedule_reset : ∃ t, perform .reset (keyed 0) = .next t := ⟨_, rfl⟩
theorem witness_OnlyExpandkeyWritesSchedule_encrypt : (∃ t, perform (.issue (encode (.encrypt 0))) (keyed 0) = .next t) ∧
    ∀ key, (.issue (encode (.encrypt 0)) : Transaction) ≠ .issue (encode (.expandkey key)) := by
  refine ⟨⟨_, rfl⟩, fun key h => ?_⟩
  have h := congrArg cmdOp (Transaction.issue.inj h)
  simp [encode, Laws.cmdOp_cmdWord, Instr.opcode] at h
theorem witness_OnlyExpandkeyWritesSchedule_refused : (∃ t, perform (.issue (encode (.expandkey 0))) refused = .next t) ∧
    refused.err = true ∧ (.issue (encode (.expandkey 0)) : Transaction) ≠ .reset := ⟨⟨_, rfl⟩, rfl, by decide⟩
theorem witness_OnlyResetClearsFlags : (∃ t, perform (.issue 0) refused = .next t) ∧ (.issue 0 : Transaction) ≠ .reset :=
  ⟨⟨_, rfl⟩, by decide⟩
theorem witness_InvKeptByStep : (State.presentNext (keyed 0) .reset).Inv ∧ ∃ t, step (State.presentNext (keyed 0) .reset) = .next t :=
  ⟨keyed_inv 0, _, rfl⟩
theorem witness_StatusValuesReachable : (keyed 0).Inv ∧ (keyed 0).status = 0x01 := ⟨keyed_inv 0, by decide⟩
theorem witness_AcceptedResultsHaveValues : (keyed 0).Inv ∧ (keyed 0).err = false ∧ (keyed 0).kvalid = true ∧
    (Instr.rdrk 0 10).wellFormed = true ∧ (Instr.rdrk 0 10).opcode ≠ 0x01 := ⟨keyed_inv 0, rfl, rfl, by decide, by decide⟩
theorem witness_AcceptedResultsHaveValues_expandkey : State.reset.err = false ∧ State.reset.kvalid = false ∧
    (Instr.expandkey 0).wellFormed = true ∧ (Instr.expandkey 0).opcode = 0x01 := by decide
theorem witness_EncryptAfterRekeyIgnoresPast : ∃ a1 b1 a2 b2, (keyed 0).err = false ∧ State.reset.err = false ∧
    exec (.expandkey 1) (keyed 0) = .next a1 ∧ exec (.expandkey 1) State.reset = .next b1 ∧
    exec (.encrypt 2) a1 = .next a2 ∧ exec (.encrypt 2) b1 = .next b2 := ⟨_, _, _, _, rfl, rfl, rfl, rfl, rfl, rfl⟩
theorem witness_ScheduleRecurrence : (4 ≤ 4 ∧ 4 < 44 ∧ 4 % 4 = 0) ∧ (4 ≤ 43 ∧ 43 < 44 ∧ 43 % 4 ≠ 0) := by decide
theorem witness_RoundConstantTopByteOnly : (1 : Fin 4) ≠ 0 ∧ 4 ≤ (40 : Fin 44).val ∧ (40 : Fin 44).val % 4 = 0 := by decide
theorem witness_SboxMatchesAlgebra : (0x53 : Byte) ≠ 0 ∧ sbox 0x53 = sbox 0x53 := by decide
theorem witness_GenerateBlockByCipher : (keyed defaultKey).err = false ∧ (keyed defaultKey).kvalid = true ∧
    (keyed defaultKey).HoldsSchedule (keyExpansion defaultKey) := ⟨rfl, rfl, rfl⟩
/-- A matrix whose column 0 is `[80,00,00,00]`, column 1 `[01,00,00,00]`, column 2 four equal bytes. -/
def sampleGrid : Grid := Grid.ofFn fun r c => if c = 2 then 0x57 else if r = 0 then (if c = 0 then 0x80 else 0x01) else 0
theorem witness_MixColumnsLinear : (Grid.at sampleGrid 0 0 = 0x80 ∧ Grid.at sampleGrid 0 1 = 0x01) ∧
    (∀ c : Fin 4, c ≠ 2 → Grid.at sampleGrid 1 c = 0 ∧ Grid.at sampleGrid 2 c = 0 ∧ Grid.at sampleGrid 3 c = 0) ∧
    ∀ r, Grid.at sampleGrid r 2 = 0x57 := by decide
theorem witness_StoreInvertsLoad : (State.reset.setMatrix (some sampleGrid)).matrix = some sampleGrid := rfl

/-- The bytes, the Generator and `STATUS` of a `generate` that succeeds. -/
def generated (a : GenerateAnswer) : Option (List Byte × Client × Byte) :=
  match a with
  | .bytes out c s => some (out, c, s.status)
  | _ => none
/-- 95_test_vectors.md P3: the first block of the default Generator from `DT = 0`, created by this use. -/
theorem test_generate : generated (generate 2 .fresh 0 State.reset) = some ([0xe9, 0x18],
    .ready { v := 0xd42924ab20f7e213b741d9d28da73cf8, dt := 1, prevRand := 0xe91833faa8f38db3d7725f71473f7c8f }, 0x03) := by
  decide +kernel
theorem witness_GenerateLength : (generated (generate 2 .fresh 0 State.reset)).isSome = true := by
  rw [test_generate]
  rfl
/-- The Generator of 95_test_vectors.md section 8's constructed self-collision. -/
def collider : Generator := { v := defaultSeed, dt := 0, prevRand := 0xe91833faa8f38db3d7725f71473f7c8f }
/-- 95_test_vectors.md section 8: it fails with nothing written and its registers kept, and the block's `STATUS` is 0x03. -/
theorem test_self_collision : (match generate 32 (.ready collider) 0 (keyed defaultKey) with
    | .failed e written c s => some (e, written, c, s.status)
    | _ => none) = some (.selfCollision, [], .spent collider, 0x03) := by decide +kernel
theorem witness_FailedGeneratorIsNotReused : ∃ e written c s, generate 32 (.ready collider) 0 (keyed defaultKey) = .failed e written c s := by
  have h := test_self_collision
  split at h
  · exact ⟨_, _, _, _, by assumption⟩
  · cases h
theorem witness_FlagPageFilledOrTerminated : State.reset.err = false := rfl

end Sys2Proof.Tests
end

section
/-! PROOFS. The key expander run step by step computes `KeyExpansion` (40_key_expansion.md R101, R105), whatever the store
held before. -/

namespace Sys2Proof.Machine

/-- The key expander between two turns of its loop: every word below `n` has been produced and is that of `w`, and `KI`
names word `n`, the next one, while there is one (40_key_expansion.md R101, 10_state.md R32). -/
structure State.ExpandedBelow (s : State) (w : Schedule) (n : Nat) : Prop where
  /-- The four words of the key are there, so `W[i-1]` and `W[i-4]` of the next word are (R100). -/
  four_le : 4 ≤ n
  /-- The next word's index. -/
  ki_eq : ∀ h : n < 44, s.ki = some ⟨n, h⟩
  /-- The words produced so far. -/
  readWord_eq : ∀ j : Fin 44, j.val < n → s.readWord j = some w[j]

/-- A store whose 44 words are read as those of a schedule holds it. -/
theorem State.holdsSchedule_of_readWord {s : State} {w : Schedule} (h : ∀ j : Fin 44, s.readWord j = some w[j]) :
    s.HoldsSchedule w :=
  Vector.ext fun i hi => by simpa [State.readWord] using h ⟨i, hi⟩

/-- A word of the schedule after the production of word `i`. -/
theorem getElem_scheduleStep (w : Schedule) (i j : Fin 44) :
    (scheduleStep w i)[j] = if i = j then w[fourBack i] ^^^ expandTemp i w[previous i] else w[j] := by
  simp [scheduleStep, Vector.getElem_set, Fin.ext_iff]

/-- The first four words of the schedule are the key's (R100). -/
theorem getElem_initialSchedule (key : Block) {j : Fin 44} (h : j.val < 4) :
    (initialSchedule key)[j] = keyWord key ⟨j.val, h⟩ := by
  simp only [initialSchedule, Fin.getElem_fin, Vector.getElem_set]
  obtain ⟨j, hj⟩ := j
  simp only at h
  interval_cases j <;> rfl

/-- After the key is loaded, words 0 to 3 are the key and `KI` is 4 (R100). -/
theorem State.kxLoadKey_expandedBelow (s : State) (key : Block) :
    (s.kxLoadKey key).ExpandedBelow (initialSchedule key) 4 where
  four_le := le_rfl
  ki_eq _ := rfl
  readWord_eq j hj := by
    have hcases : j = 0 ∨ j = 1 ∨ j = 2 ∨ j = 3 := by omega
    rw [State.kxLoadKey, State.readWord_setKi, getElem_initialSchedule key hj]
    obtain rfl | rfl | rfl | rfl := hcases <;> simp [State.readWord_writeWord]

/-- One turn of the loop produces the next word as `scheduleStep` does (R101). -/
theorem State.ExpandedBelow.kxStep {s : State} {w : Schedule} {i : Fin 44} (h : s.ExpandedBelow w i.val) :
    s.kxStep.ExpandedBelow (scheduleStep w i) (i.val + 1) := by
  obtain ⟨hfour, hki, hread⟩ := h
  have hprev : s.readWord (previous i) = some w[previous i] := hread _ (by simp only [previous]; omega)
  have hback : s.readWord (fourBack i) = some w[fourBack i] := hread _ (by simp only [fourBack]; omega)
  have hstep : s.kxStep = (s.kxWord i).setKi (nextKi i) := by simp [State.kxStep, hki i.isLt]
  refine ⟨by omega, fun hlt => by simp [hstep, nextKi, hlt], fun j hj => ?_⟩
  rw [hstep, State.readWord_setKi, State.kxWord_eq, State.readWord_writeWord, getElem_scheduleStep]
  by_cases hij : i = j
  · subst hij
    simp [hprev, hback, xorValues]
  · have hlt : j.val < i.val := by have := Fin.val_ne_of_ne hij; omega
    simp [hij, hread j hlt]

/-- The remaining `m` turns of the loop produce the words `n` to 43 of the schedule, in that order (R101). -/
theorem State.ExpandedBelow.kxLoop_holdsSchedule (m : Nat) : ∀ {s : State} {w : Schedule} {n : Nat},
    s.ExpandedBelow w n → n + m = 44 →
    (s.kxLoop m).HoldsSchedule (((List.finRange 44).drop n).foldl scheduleStep w) := by
  induction m with
  | zero =>
    intro s w n h hn
    obtain rfl : n = 44 := hn
    exact State.holdsSchedule_of_readWord fun j => h.readWord_eq j j.isLt
  | succ m ih =>
    intro s w n h hn
    have hlt : n < 44 := by omega
    have hdrop : (List.finRange 44).drop n = ⟨n, hlt⟩ :: (List.finRange 44).drop (n + 1) := by
      rw [List.drop_eq_getElem_cons (by simpa using hlt)]
      simp
    rw [hdrop, List.foldl_cons]
    exact ih (State.ExpandedBelow.kxStep (i := ⟨n, hlt⟩) h) (by omega)

/-- EXPANDKEY, accepted in any state, leaves `W` holding `KeyExpansion(key)` (R105, R106). -/
theorem State.kxRun_holdsSchedule (s : State) (key : Block) : (s.kxRun key).HoldsSchedule (keyExpansion key) := by
  have h := (s.kxLoadKey_expandedBelow key).kxLoop_holdsSchedule 40 rfl
  unfold State.HoldsSchedule at h ⊢
  rw [keyExpansion, scheduleIndices, ← h, State.kxRun, State.setKi_w, State.setT_w, State.setKvalid_w]

end Sys2Proof.Machine
end

section
/-! PROOFS. Which command words are EXPANDKEY (30_encoding.md R81, R84), and what the other commands do to `W`
(10_state.md R23). -/

namespace Sys2Proof.Machine

/-- A command word is made of its two fields (30_encoding.md R81). -/
theorem cmdWord_cmdOp_cmdOperand (c : CmdWord) : cmdWord (cmdOp c) (cmdOperand c) = c := by
  have h : c.extractLsb' 128 8 ++ c.extractLsb' 0 128 = c.extractLsb' 0 (8 + 128) :=
    BitVec.extractLsb'_append_extractLsb'_eq_extractLsb' (by decide)
  simpa [cmdWord, cmdOp, cmdOperand] using h

/-- EXPANDKEY is the reading of one command word only (R83, R84). -/
theorem decode_eq_expandkey {c : CmdWord} {key : Block} :
    decode c = .ok (.expandkey key) ↔ c = encode (.expandkey key) := by
  constructor
  · intro h
    unfold decode at h
    split at h
    · rename_i hop
      injection h with h
      injection h with h
      rw [← cmdWord_cmdOp_cmdOperand c, hop, h]
      rfl
    · split_ifs at h <;> simp at h
  · rintro rfl
    simp [decode, encode, Instr.opcode, Instr.operand]

/-- A refusal leaves `W` alone (60_exceptions.md R204, R205). -/
@[simp] theorem State.refuse_w (s : State) (cause : ErrCode) : (s.refuse cause).w = s.w := by
  unfold State.refuse
  split <;> rfl

/-- The end of a command leaves `W` alone (10_state.md R29). -/
@[simp] theorem State.endCommand_w (s : State) : s.endCommand.w = s.w := rfl
theorem State.holdsSchedule_endCommand {s : State} {w : Schedule} :
    s.endCommand.HoldsSchedule w ↔ s.HoldsSchedule w := Iff.rfl

/-- A command that is refused by the sticky error, or that is not EXPANDKEY, leaves `W` alone (10_state.md R23). -/
theorem exec_w_eq {i : Instr} {s t : State} (h : exec i s = .next t)
    (hi : s.err = true ∨ ∀ key, i ≠ .expandkey key) : t.w = s.w := by
  obtain ⟨-, rfl⟩ | ⟨key, rfl, herr, rfl⟩ | ⟨input, -, -, -, rfl⟩ | ⟨_, _, r, -, -, -, -, -, rfl⟩ |
    ⟨_, _, -, -, -, rfl⟩ | ⟨-, -, -, -, rfl⟩ := exec_cases h
  · rfl
  · obtain herr' | hne := hi
    · simp [herr] at herr'
    · exact absurd rfl (hne key)
  · exact (s.epRun_frame input).1
  · rfl
  · rfl
  · rfl

/-- After a `reset` no word of `W` has a value (10_state.md R37). -/
theorem State.readWord_resetBlock (s : State) (i : Fin 44) : s.resetBlock.readWord i = none := by
  simp [State.readWord, State.resetBlock_eq]

/-- EXPANDKEY issued with `ERR = 0` replaces the whole of `W` (R23, R106). -/
theorem perform_expandkey_holdsSchedule {key : Block} {s t : State}
    (h : perform (.issue (encode (.expandkey key))) s = .next t) (herr : s.err = false) :
    t.HoldsSchedule (keyExpansion key) := by
  have hdec : decode (encode (.expandkey key)) = .ok (.expandkey key) := decode_eq_expandkey.2 rfl
  simp only [perform, issue, runCaptured, State.setCaptured_captured, runCommand, hdec, exec_expandkey,
    State.setCaptured_err, herr, onNext_next] at h
  rw [← Host.Outcome.next.inj h, State.holdsSchedule_endCommand]
  exact State.kxRun_holdsSchedule _ key

/-- Every transaction but `reset` and an EXPANDKEY issued with `ERR = 0` leaves `W` alone (R23). -/
theorem perform_w_eq {tr : Transaction} {s t : State} (h : perform tr s = .next t) (hreset : tr ≠ .reset)
    (hkey : s.err = true ∨ ∀ key, tr ≠ .issue (encode (.expandkey key))) : t.w = s.w := by
  obtain ⟨rfl, -⟩ | ⟨c, i, u, rfl, hdec, hu, rfl⟩ | ⟨c, op, -, -, rfl⟩ := perform_cases h
  · exact absurd rfl hreset
  · have hi : s.err = true ∨ ∀ key, i ≠ .expandkey key :=
      hkey.imp_right fun hne key hi => hne key (congrArg _ (decode_eq_expandkey.1 (hi ▸ hdec)))
    rw [State.endCommand_w, exec_w_eq hu hi, State.setCaptured_w]
  · simp

/-- Settles O22: the key expander computes the whole schedule, and no other transaction but `reset` writes `W`. -/
theorem onlyExpandkeyWritesSchedule : Obligations.OnlyExpandkeyWritesSchedule := by
  intro tr s t h
  refine ⟨fun key htr herr => ?_, fun htr i => ?_, perform_w_eq h⟩
  · subst htr
    exact perform_expandkey_holdsSchedule h herr
  · subst htr
    cases h
    exact s.readWord_resetBlock i

end Sys2Proof.Machine
end

section
/-! PROOFS. The opcode map (30_encoding.md R83) and the fields of a command by its opcode (R84 to R86). -/

namespace Sys2Proof

/-- The two fields of an RDRK operand (30_encoding.md R86). -/
@[simp] theorem rdrkReserved_append (reserved : BitVec 120) (n : Byte) : rdrkReserved (reserved ++ n) = reserved :=
  BitVec.extractLsb'_append_eq_left
@[simp] theorem rdrkRound_append (reserved : BitVec 120) (n : Byte) : rdrkRound (reserved ++ n) = n :=
  BitVec.extractLsb'_append_eq_right
theorem rdrkReserved_append_rdrkRound (operand : Block) : rdrkReserved operand ++ rdrkRound operand = operand := by
  have h : operand.extractLsb' 8 120 ++ operand.extractLsb' 0 8 = operand.extractLsb' 0 (120 + 8) :=
    BitVec.extractLsb'_append_extractLsb'_eq_extractLsb' (by decide)
  simpa [rdrkReserved, rdrkRound] using h

/-- Settles O3: the decoder reads the opcode off its field and gives the command the operand's field. -/
theorem opcodeSelectsCommand : Obligations.OpcodeSelectsCommand := by
  intro op operand
  rw [decode, Laws.cmdOp_cmdWord, Laws.cmdOperand_cmdWord, rdrkReserved, rdrkRound]

/-- The word of one of the three opcodes is a command with that opcode and that operand (R83 to R86). -/
theorem exists_decode_cmdWord {op : Byte} (operand : Block) (hop : op = 0x01 ∨ op = 0x02 ∨ op = 0x03) :
    ∃ i, decode (cmdWord op operand) = .ok i ∧ i.opcode = op ∧ i.operand = operand := by
  rw [opcodeSelectsCommand]
  obtain rfl | rfl | rfl := hop
  · exact ⟨.expandkey operand, rfl, rfl, rfl⟩
  · exact ⟨.encrypt operand, rfl, rfl, rfl⟩
  · exact ⟨.rdrk (rdrkReserved operand) (rdrkRound operand), rfl, rfl, rdrkReserved_append_rdrkRound operand⟩

/-- The word of any other opcode is reserved (R83). -/
theorem decode_cmdWord_reserved {op : Byte} (operand : Block) (hop : op ≠ 0x01 ∧ op ≠ 0x02 ∧ op ≠ 0x03) :
    decode (cmdWord op operand) = .error (.reservedOpcode op) := by
  obtain ⟨h1, h2, h3⟩ := hop
  rw [opcodeSelectsCommand, if_neg h1, if_neg h2, if_neg h3]

/-- Only RDRK can be malformed, by a reserved bit or by its round number (R84 to R86). -/
theorem Instr.wellFormed_eq_false_iff {i : Instr} : i.wellFormed = false ↔
    i.opcode = 0x03 ∧ (rdrkReserved i.operand ≠ 0 ∨ 10 < (rdrkRound i.operand).toNat) := by
  cases i with
  | expandkey key => simp [Instr.wellFormed, Instr.opcode]
  | encrypt input => simp [Instr.wellFormed, Instr.opcode]
  | rdrk reserved n =>
    simp [Instr.wellFormed, Instr.opcode, Instr.operand, rdrkOperandOk, imp_iff_not_or]

end Sys2Proof
end

section
/-! PROOFS. The decode order of `issue` (30_encoding.md R90): one rule per step, then the steps in their order. -/

namespace Sys2Proof.Machine

/-- Decode order, step 3: a malformed command is refused with BADARG, with or without a key (R90, 60_exceptions.md R202). -/
theorem exec_of_malformed {i : Instr} {s : State} (herr : s.err = false) (hi : i.wellFormed = false) :
    exec i s = .next (s.setError .badarg) := by
  cases i with
  | expandkey key => cases hi
  | encrypt input => cases hi
  | rdrk reserved n =>
    have hok : rdrkOperandOk reserved n = false := hi
    simp [exec_rdrk, herr, State.rdrkChecked_malformed hok, State.refuse_of_no_err herr]

/-- Decode order, step 4: a well-formed ENCRYPT or RDRK without a key is refused with NOKEY (R90, 60_exceptions.md R203). -/
theorem exec_of_no_key {i : Instr} {s : State} (herr : s.err = false) (hi : i.wellFormed = true) (hop : i.opcode ≠ 0x01)
    (hkey : s.kvalid = false) : exec i s = .next (s.setError .nokey) := by
  obtain ⟨t, ht⟩ := exec_next i s
  obtain ⟨herr', -⟩ | ⟨key, rfl, -, -⟩ | ⟨_, -, -, hkey', -⟩ | ⟨_, _, _, -, -, -, -, hkey', -⟩ | ⟨_, _, rfl, hok, -, -⟩ |
    ⟨-, -, -, -, rfl⟩ := exec_cases ht
  · simp [herr] at herr'
  · exact absurd rfl hop
  · simp [hkey] at hkey'
  · simp [hkey] at hkey'
  · simp [Instr.wellFormed, hok] at hi
  · exact ht

/-- `issue` runs the command on the state that has captured it, then drops the captured copy (10_state.md R29). -/
theorem issue_eq_runCommand (c : CmdWord) (s : State) :
    issue c s = onNext State.endCommand (runCommand c (s.setCaptured (some c))) := rfl

/-- A command that decodes is what `exec` makes of it; a reserved opcode is refused with BADCMD (R90, step 2). -/
theorem issue_of_decode {c : CmdWord} {i : Instr} (h : decode c = .ok i) (s : State) :
    issue c s = onNext State.endCommand (exec i (s.setCaptured (some c))) := by
  simp [issue_eq_runCommand, runCommand, h]
theorem issue_of_exec {c : CmdWord} {i : Instr} {s t : State} (hdec : decode c = .ok i)
    (hexec : exec i (s.setCaptured (some c)) = .next t) : issue c s = .next t.endCommand := by
  rw [issue_of_decode hdec, hexec, onNext_next]
theorem issue_of_reserved {c : CmdWord} {op : Byte} (h : decode c = .error (.reservedOpcode op)) (s : State) :
    issue c s = .next ((s.setCaptured (some c)).refuse .badcmd).endCommand := by
  simp [issue_eq_runCommand, runCommand, h]

/-- Decode order, step 1: while `ERR = 1` an issued word, reserved or not, changes nothing but the captured copy (R90, R205). -/
theorem issue_of_err (c : CmdWord) {s : State} (h : s.err = true) : issue c s = .next s.endCommand := by
  have h' : (s.setCaptured (some c)).err = true := h
  match hdec : decode c with
  | .ok i => exact (issue_of_exec hdec (exec_of_err i h')).trans rfl
  | .error (.reservedOpcode _) =>
    rw [issue_of_reserved hdec, State.refuse_of_err h']
    rfl

/-- Settles O8: each step of the decode order is one lemma about `issue` or `exec`, in the order of R90. -/
theorem decodeOrder : Obligations.DecodeOrder := by
  intro s op operand
  split_ifs with herr hres hbad hkey
  · exact issue_of_err _ herr
  all_goals replace herr : s.err = false := Bool.eq_false_iff.2 herr
  · rw [issue_of_reserved (decode_cmdWord_reserved operand hres), State.refuse_of_no_err (s := s.setCaptured (some _)) herr]
    rfl
  all_goals obtain ⟨i, hdec, rfl, rfl⟩ := exists_decode_cmdWord operand (by tauto : op = 0x01 ∨ op = 0x02 ∨ op = 0x03)
  · exact issue_of_exec hdec (exec_of_malformed herr (Instr.wellFormed_eq_false_iff.2 hbad))
  · have hwf : i.wellFormed = true := Bool.of_not_eq_false (mt Instr.wellFormed_eq_false_iff.1 hbad)
    have hop : i.opcode ≠ 0x01 := by
      obtain ⟨h | h, -⟩ := hkey <;> simp [h]
    exact issue_of_exec hdec (exec_of_no_key herr hwf hop hkey.2)
  · exact ⟨i, rfl, rfl, issue_of_decode hdec s⟩

end Sys2Proof.Machine
end

section
/-! PROOFS. The word functions of key expansion, byte by byte (40_key_expansion.md R102 to R104). -/

namespace Sys2Proof.Machine

/-- RotWord moves every byte up one place, the top one to the bottom (R102; addition in `Fin 4` is modulo 4). -/
@[simp] theorem wordByte_rotWord (t : Word) (j : Fin 4) : wordByte (rotWord t) j = wordByte t (j + 1) := by
  apply BitVec.eq_of_getLsbD_eq
  intro i hi
  simp only [wordByte, rotWord, BitVec.getLsbD_extractLsb', BitVec.getLsbD_rotateLeft, hi]
  fin_cases j <;> simp <;> grind

/-- Settles O35: by bytes, RotWord adds one to the place; four times it adds zero. -/
theorem rotWordMovesBytes : Obligations.RotWordMovesBytes := by
  refine ⟨fun a0 a1 a2 a3 => word_ext fun j => ?_, fun t => word_ext fun j => ?_, fun t => rfl⟩
  · fin_cases j <;> simp
  · have hfour : j + 1 + 1 + 1 + 1 = j := by omega
    simp [hfour]

/-- Settles O36: the four bytes of a word built from bytes. -/
theorem subWordBytewise : Obligations.SubWordBytewise := by
  intro t j
  fin_cases j <;> simp [subWord]

/-- A byte shifted up by 24 bits is the top byte of a word, and the others are zero (R104). -/
theorem wordByte_shiftTop (b : Byte) (j : Fin 4) :
    wordByte (b.zeroExtend 32 <<< 24) j = if j = 0 then b else 0 := by
  apply BitVec.eq_of_getLsbD_eq
  intro i hi
  fin_cases j <;> simp [wordByte, hi] <;> grind

/-- The round constant is XORed into the top byte (R104). -/
theorem wordByte_addRcon (k : Fin 10) (t : Word) (j : Fin 4) :
    wordByte (addRcon k t) j = wordByte t j ^^^ if j = 0 then rcon k else 0 := by
  rw [addRcon, wordByte_xor, wordByte_shiftTop]

/-- Settles O37: the bytes of the XOR, and the index of each group's constant. -/
theorem roundConstantTopByteOnly : Obligations.RoundConstantTopByteOnly := by
  refine ⟨fun k t => ⟨?_, fun j hj => ?_⟩, fun i hi _ => ?_, rfl, rfl⟩
  · simp [wordByte_addRcon]
  · simp [wordByte_addRcon, hj]
  · simp only [rconIndex]
    omega

end Sys2Proof.Machine
end

section
/-! PROOFS. The words of `KeyExpansion(key)` (40_key_expansion.md R100, R101): a word, once produced, is not written again,
so the recurrence holds of the finished schedule. -/

namespace Sys2Proof.Machine

/-- Productions of other words leave a word alone. -/
theorem getElem_foldl_scheduleStep_of_notMem {l : List (Fin 44)} {j : Fin 44} (hj : j ∉ l) (w : Schedule) :
    (l.foldl scheduleStep w)[j] = w[j] := by
  induction l generalizing w with
  | nil => rfl
  | cons i l ih =>
    obtain ⟨hne, hj⟩ := not_or.1 (mt List.mem_cons.2 hj)
    rw [List.foldl_cons, ih hj, getElem_scheduleStep, if_neg (Ne.symm hne)]

/-- Productions in increasing index order: in the schedule they leave, every word produced is the recurrence's (R101). -/
theorem getElem_foldl_scheduleStep {l : List (Fin 44)} (hl : l.Pairwise (· < ·)) {i : Fin 44} (hi : i ∈ l)
    (hpos : 0 < i.val) (w : Schedule) : (l.foldl scheduleStep w)[i] =
      (l.foldl scheduleStep w)[fourBack i] ^^^ expandTemp i (l.foldl scheduleStep w)[previous i] := by
  induction l generalizing w with
  | nil => cases hi
  | cons a l ih =>
    obtain ⟨ha, hl⟩ := List.pairwise_cons.1 hl
    rw [List.foldl_cons]
    obtain rfl | hi := List.mem_cons.1 hi
    · have hkept (j : Fin 44) (hj : j.val ≤ i.val) :
          (l.foldl scheduleStep (scheduleStep w i))[j] = (scheduleStep w i)[j] :=
        getElem_foldl_scheduleStep_of_notMem (fun hmem => absurd (ha j hmem) (by omega)) _
      have hback : (fourBack i).val < i.val := by simp only [fourBack]; omega
      have hprev : (previous i).val < i.val := by simp only [previous]; omega
      rw [hkept i le_rfl, hkept _ hback.le, hkept _ hprev.le, getElem_scheduleStep, getElem_scheduleStep,
        getElem_scheduleStep, if_pos rfl, if_neg (Fin.ne_of_gt hback), if_neg (Fin.ne_of_gt hprev)]
    · exact ih hl hi _

/-- The produced indices are those from 4 up, in increasing order (R101). -/
theorem mem_scheduleIndices {i : Fin 44} : i ∈ scheduleIndices ↔ 4 ≤ i.val := by
  revert i
  decide
theorem pairwise_scheduleIndices : scheduleIndices.Pairwise (· < ·) :=
  (List.pairwise_lt_finRange 44).drop

/-- Words 0 to 3 of the expanded key are the key's (R100). -/
theorem getElem_keyExpansion_of_lt {key : Block} {i : Fin 44} (hi : i.val < 4) :
    (keyExpansion key)[i] = keyWord key ⟨i.val, hi⟩ := by
  rw [keyExpansion, getElem_foldl_scheduleStep_of_notMem (by rw [mem_scheduleIndices]; omega),
    getElem_initialSchedule key hi]

/-- Words 4 to 43 of the expanded key (R101). -/
theorem getElem_keyExpansion_of_le {key : Block} {i : Fin 44} (hi : 4 ≤ i.val) : (keyExpansion key)[i] =
    (keyExpansion key)[fourBack i] ^^^ expandTemp i (keyExpansion key)[previous i] :=
  getElem_foldl_scheduleStep pairwise_scheduleIndices (mem_scheduleIndices.2 hi) (by omega) _

/-- Settles O33: the recurrence, with its temporary and its indices written out. -/
theorem scheduleRecurrence : Obligations.ScheduleRecurrence := by
  intro key i hi hlt
  exact getElem_keyExpansion_of_le (i := ⟨i, hlt⟩) hi

/-- Word `c` of round key `n` is word `4n + c` of the schedule (10_state.md R21). -/
theorem getElem_roundKey (w : Schedule) (n : Fin 11) (c : Fin 4) : (roundKey w n)[c] = w[roundWord n c] := by
  fin_cases c <;> rfl

/-- Byte `r` of word `c` of the key is its byte `4c + r` (R100). -/
theorem wordByte_keyWord (key : Block) (r c : Fin 4) : wordByte (keyWord key c) r = blockByte key (offset r c) := by
  fin_cases r <;> simp [keyWord]

/-- Settles O32: no production writes words 0 to 3; the bytes of round key 0 are the key's. -/
theorem scheduleBeginsWithKey : Obligations.ScheduleBeginsWithKey := by
  refine fun key => ⟨fun i => ?_, block_ext fun k => ?_⟩
  · exact getElem_keyExpansion_of_lt (i := ⟨i.val, by omega⟩) i.isLt
  · have hword : (roundKey (keyExpansion key) 0)[offsetCol k] = keyWord key (offsetCol k) := by
      have hlt : (roundWord 0 (offsetCol k)).val < 4 := by simp only [roundWord]; omega
      rw [getElem_roundKey, getElem_keyExpansion_of_lt hlt]
      congr 1
      ext
      simp [roundWord]
    rw [blockByte_toBlock, hword, wordByte_keyWord, offset_row_col]

end Sys2Proof.Machine
end

section
/-! PROOFS. The encryption pipeline run step by step computes `Cipher` (41_encrypt_block.md R121, R122, R125). -/

namespace Sys2Proof.Machine

/-- The state `s` with the pipeline under way: `S` holds `g` and `RND` is `n` (10_state.md R30, R32). -/
def State.inPipeline (s : State) (g : Grid) (n : Option (Fin 11)) : State := (s.setMatrix (some g)).setRnd n

section
variable {s : State} {w : Schedule} (input : Block) (hw : s.HoldsSchedule w)
include hw

/-- AddRoundKey of the round that `RND` names (42_round_transformations.md R146). -/
theorem State.epStep_inPipeline_addRoundKey (g : Grid) (n : Fin 11) :
    (s.inPipeline g (some n)).epStep input .addRoundKey =
      s.inPipeline (Grid.addRoundKey (roundKey w n) g) (nextRnd n) :=
  State.epStep_addRoundKey (s := s.inPipeline g (some n)) input hw rfl rfl

/-- One of the repeated rounds is `cipherRound` (R121). -/
theorem State.foldl_epRound (g : Grid) (n : Fin 11) :
    epRound.foldl (State.epStep input) (s.inPipeline g (some n)) = s.inPipeline (cipherRound w g n) (nextRnd n) :=
  State.epStep_inPipeline_addRoundKey input hw (Grid.mixColumns (Grid.shiftRows (Grid.subBytes g))) n

/-- The last round and the store (R121, R123). -/
theorem State.foldl_epFinish (g : Grid) : epFinish.foldl (State.epStep input) (s.inPipeline g (some 10)) =
    { s with dout := some (Grid.store (finalRound w g)), dvalid := true, matrix := none, rnd := none } :=
  congrArg (State.epStep input · .storeState)
    (State.epStep_inPipeline_addRoundKey input hw (Grid.shiftRows (Grid.subBytes g)) 10)

/-- The repeated rounds `n` to `n + m - 1`; after them `RND` is `n + m` (R121). -/
theorem State.foldl_epRounds (m : Nat) : ∀ (g : Grid) (n : Nat) (h : n + m < 11),
    (List.replicate m epRound).flatten.foldl (State.epStep input) (s.inPipeline g (some ⟨n, by omega⟩)) =
      s.inPipeline ((((List.finRange 11).drop n).take m).foldl (cipherRound w) g) (some ⟨n + m, h⟩) := by
  induction m with
  | zero => exact fun g n h => rfl
  | succ m ih =>
    intro g n h
    have hdrop : (List.finRange 11).drop n = ⟨n, by omega⟩ :: (List.finRange 11).drop (n + 1) := by
      rw [List.drop_eq_getElem_cons (by rw [List.length_finRange]; omega)]
      simp
    have hnext : nextRnd ⟨n, by omega⟩ = some ⟨n + 1, by omega⟩ := dif_pos (by simp only; omega)
    rw [List.replicate_succ, List.flatten_cons, List.foldl_append, State.foldl_epRound input hw, hnext,
      ih _ _ (by omega), hdrop, List.take_succ_cons, List.foldl_cons]
    simp only [Nat.add_right_comm n 1 m, Nat.add_assoc n m 1]

/-- ENCRYPT, accepted on a schedule, leaves its cipher in `DOUT` and no value in `S` and `RND` (R122 to R125). -/
theorem State.epRun_eq : s.epRun input =
    { s with dout := some (cipher input w), dvalid := true, matrix := none, rnd := none } := by
  have hstart : [EpStep.loadState, .addRoundKey].foldl (State.epStep input) s =
      s.inPipeline (Grid.addRoundKey (roundKey w 0) (Grid.load input)) (some 1) :=
    State.epStep_inPipeline_addRoundKey input hw (Grid.load input) 0
  have hrounds (g : Grid) : (List.replicate 9 epRound).flatten.foldl (State.epStep input) (s.inPipeline g (some 1)) =
      s.inPipeline (([1, 2, 3, 4, 5, 6, 7, 8, 9] : List (Fin 11)).foldl (cipherRound w) g) (some 10) :=
    State.foldl_epRounds input hw 9 g 1 (by decide)
  rw [State.epRun, epProgram, List.foldl_append, List.foldl_append, hstart, hrounds, State.foldl_epFinish input hw]
  rfl

/-- ENCRYPT on a keyed block with `ERR = 0` (R124). -/
theorem exec_encrypt_of_holdsSchedule (herr : s.err = false) (hkey : s.kvalid = true) : exec (.encrypt input) s =
    .next { s with dout := some (cipher input w), dvalid := true, matrix := none, rnd := none } := by
  simp [exec_encrypt, herr, hkey, State.epRun_eq input hw]

end

end Sys2Proof.Machine
end

section
/-! PROOFS. EXPANDKEY as one change of the state, and the ENCRYPT that follows it (40_key_expansion.md R106). -/

namespace Sys2Proof.Machine

/-- What EXPANDKEY leaves after the turns of its loop: `W` from the loop, `KVALID = 1`, no value in `t` and `KI` (R106;
10_state.md R31, R32). -/
theorem State.kxLoop_finish (s : State) (n : Nat) {v : Vector (Option Word) 44} (hw : (s.kxLoop n).w = v) :
    (((s.kxLoop n).setKvalid true).setT none).setKi none = { s with w := v, kvalid := true, t := none, ki := none } := by
  obtain ⟨-, hdout, hdvalid, herr, herrcode, hcaptured, hmatrix, hrnd, hport⟩ := s.kxLoop_frame n
  exact State.ext_fields hw rfl hdout hdvalid herr herrcode hcaptured hmatrix rfl hrnd rfl hport

/-- EXPANDKEY, accepted in any state, as one change of the state (R106). -/
theorem State.kxRun_eq (s : State) (key : Block) : s.kxRun key =
    { s with w := (keyExpansion key).map some, kvalid := true, t := none, ki := none } := by
  have hw : (s.kxRun key).w = (keyExpansion key).map some := s.kxRun_holdsSchedule key
  exact (s.kxLoadKey key).kxLoop_finish 40 hw

/-- Settles O10: EXPANDKEY is one change of the state; the ENCRYPT after it finds the schedule there. -/
theorem expandkeyInstallsSchedule : Obligations.ExpandkeyInstallsSchedule := by
  intro key s
  have hexec (herr : s.err = false) : exec (.expandkey key) s =
      .next { s with w := (keyExpansion key).map some, kvalid := true, t := none, ki := none } := by
    simp [exec_expandkey, herr, State.kxRun_eq]
  exact ⟨hexec, fun herr input => ⟨_, _, hexec herr, exec_encrypt_of_holdsSchedule input rfl herr rfl, rfl, rfl, herr⟩,
    exec_of_err _⟩

end Sys2Proof.Machine
end

section
/-! PROOFS. ENCRYPT in its three cases (41_encrypt_block.md R124). -/

namespace Sys2Proof.Machine

/-- Settles O12: the pipeline's run on a schedule, and steps 4 and 1 of the decode order. -/
theorem encryptComputesCipher : Obligations.EncryptComputesCipher := by
  refine fun input s => ⟨fun w herr hkey hw => ?_, fun herr hkey => ?_, fun herr => ?_⟩
  · exact exec_encrypt_of_holdsSchedule input hw herr hkey
  · have hop : (Instr.encrypt input).opcode ≠ 0x01 := by simp [Instr.opcode]
    exact exec_of_no_key herr rfl hop hkey
  · exact exec_of_err _ herr

end Sys2Proof.Machine
end

section
/-! PROOFS. LoadState and StoreState (41_encrypt_block.md R120, R123). -/

namespace Sys2Proof.Machine

/-- StoreState after LoadState: offset `k` is `4c + r` for its own row and column (20_memory.md R56). -/
@[simp] theorem Grid.store_load (b : Block) : Grid.store (Grid.load b) = b :=
  block_ext fun k => by rw [blockByte_store, Grid.at_load, offset_row_col]

/-- Byte `4c + r` of a stored matrix, whose row is `r` and whose column is `c` (R123, 20_memory.md R56). -/
theorem blockByte_store_offset (g : Grid) (r c : Fin 4) : blockByte (Grid.store g) (offset r c) = Grid.at g r c := by
  rw [blockByte_store, offsetRow_offset, offsetCol_offset]

/-- LoadState after StoreState is the identity, element by element. -/
@[simp] theorem Grid.load_store (g : Grid) : Grid.load (Grid.store g) = g :=
  Grid.ext_at fun r c => by rw [Grid.at_load, blockByte_store_offset]

/-- LoadState gives `S` its value (R120). -/
@[simp] theorem State.epStep_loadState_matrix (input : Block) (s : State) :
    (s.epStep input .loadState).matrix = some (Grid.load input) := rfl

/-- StoreState of a matrix writes `DOUT`; of any state it leaves `S` without a value (R123). -/
theorem State.epStep_storeState_dout {s : State} {g : Grid} (input : Block) (hm : s.matrix = some g) :
    (s.epStep input .storeState).dout = some (Grid.store g) := by
  simp [State.epStep, State.writeResult, hm]
@[simp] theorem State.epStep_storeState_matrix (input : Block) (s : State) :
    (s.epStep input .storeState).matrix = none := rfl

/-- Settles O40: the two mappings element by element, their two compositions, and the two pipeline steps. -/
theorem storeInvertsLoad : Obligations.StoreInvertsLoad :=
  ⟨Grid.at_load, blockByte_store_offset, Grid.store_load, Grid.load_store, State.epStep_loadState_matrix,
    fun input s _ hm => ⟨State.epStep_storeState_dout input hm, s.epStep_storeState_matrix input⟩⟩

end Sys2Proof.Machine
end

section
/-! PROOFS. RDRK in its cases (43_system_commands.md R160). -/

namespace Sys2Proof.Machine

/-- The two conditions of the RDRK operand check (30_encoding.md R86). -/
theorem rdrkOperandOk_iff {reserved : BitVec 120} {n : Byte} :
    rdrkOperandOk reserved n = true ↔ reserved = 0 ∧ n.toNat ≤ 10 := by
  simp [rdrkOperandOk]
theorem rdrkOperandOk_eq_false_iff {reserved : BitVec 120} {n : Byte} :
    rdrkOperandOk reserved n = false ↔ reserved ≠ 0 ∨ 10 < n.toNat := by
  simp [rdrkOperandOk, imp_iff_not_or]

/-- Byte `4c + j` of round key `n` is byte `j` of word `4n + c` of the schedule (10_state.md R21). -/
theorem toBlock_roundKey (w : Schedule) (n : Fin 11) : RoundKey.toBlock (roundKey w n) =
    blockOfBytes fun k => wordByte w[roundWord n (offsetCol k)] (offsetRow k) := by
  simp only [RoundKey.toBlock, getElem_roundKey]

/-- RDRK, accepted on a store that holds a schedule, as one change of the state (R160). -/
theorem State.rdrkRun_of_holdsSchedule {s : State} {w : Schedule} (hw : s.HoldsSchedule w) (n : Fin 11) :
    s.rdrkRun n = { s with dout := some (RoundKey.toBlock (roundKey w n)), dvalid := true } := by
  rw [State.rdrkRun, State.readRoundKey_of_holds hw, Option.map_some]
  rfl

/-- A well-formed RDRK on a keyed block with `ERR = 0` (R160). -/
theorem exec_rdrk_of_holdsSchedule {s : State} {w : Schedule} {n : Byte} {r : Fin 11} (hw : s.HoldsSchedule w)
    (herr : s.err = false) (hkey : s.kvalid = true) (hn : n.toNat = r.val) : exec (.rdrk 0 n) s =
      .next { s with dout := some (RoundKey.toBlock (roundKey w r)), dvalid := true } := by
  have hok : rdrkOperandOk 0 n = true := rdrkOperandOk_iff.2 ⟨rfl, by omega⟩
  have hchecked : s.rdrkChecked 0 n = s.rdrkRun r := by
    rw [State.rdrkChecked_ok hok (roundOfByte_eq_some.2 hn), State.withKey_of_key hkey]
  rw [exec_rdrk, hchecked, State.rdrkRun_of_holdsSchedule hw]
  simp [herr]

/-- Settles O14: the read of a round key from the schedule, whose round key 0 is the key, and steps 3, 4 and 1 of the
decode order. -/
theorem rdrkReadsRoundKey : Obligations.RdrkReadsRoundKey := by
  refine fun reserved n s => ⟨fun w r herr hkey hw hres hn => ?_, fun key herr hkey hw hres hn => ?_, fun herr hbad => ?_,
    fun herr hres hn hkey => ?_, exec_of_err _⟩
  · rw [hres, ← toBlock_roundKey]
    exact exec_rdrk_of_holdsSchedule hw herr hkey hn
  · have hround : RoundKey.toBlock (roundKey (keyExpansion key) 0) = key := (scheduleBeginsWithKey key).2
    rw [hres, hn, exec_rdrk_of_holdsSchedule (n := 0) (r := 0) hw herr hkey rfl, hround]
  · exact exec_of_malformed herr (rdrkOperandOk_eq_false_iff.2 hbad)
  · have hop : (Instr.rdrk reserved n).opcode ≠ 0x01 := by simp [Instr.opcode]
    exact exec_of_no_key herr (rdrkOperandOk_iff.2 ⟨hres, hn⟩) hop hkey

end Sys2Proof.Machine
end

section
/-! PROOFS. The causes of a refusal and the sticky error (60_exceptions.md sections 2 and 3). -/

namespace Sys2Proof.Machine

/-- The opcodes that no command has are 0x00 and 0x04 to 0xFF (30_encoding.md R83, 60_exceptions.md R201). -/
theorem opcode_reserved_iff {op : Byte} : (op ≠ 0x01 ∧ op ≠ 0x02 ∧ op ≠ 0x03) ↔ (op = 0x00 ∨ 0x04 ≤ op.toNat) := by
  bv_omega

/-- An accepted command leaves `ERRCODE` alone (40_key_expansion.md R106, 41_encrypt_block.md R124). -/
@[simp] theorem State.kxRun_errcode (s : State) (key : Block) : (s.kxRun key).errcode = s.errcode := by
  rw [State.kxRun_eq]
@[simp] theorem State.epRun_errcode (s : State) (input : Block) : (s.epRun input).errcode = s.errcode := by
  obtain ⟨-, -, -, herrcode, -⟩ := s.epRun_frame input
  exact herrcode

/-- The causes that a command can raise: BADARG when it is malformed, NOKEY when it is well formed and not EXPANDKEY
(60_exceptions.md R202, R203). -/
theorem exec_errcode_cases {i : Instr} {s t : State} (h : exec i s = .next t) :
    t.errcode = s.errcode ∨ (i.wellFormed = false ∧ t.errcode = .badarg) ∨
      (i.wellFormed = true ∧ i.opcode ≠ 0x01 ∧ t.errcode = .nokey) := by
  obtain ⟨-, rfl⟩ | ⟨key, -, -, rfl⟩ | ⟨input, -, -, -, rfl⟩ | ⟨_, _, r, -, -, -, -, -, rfl⟩ |
    ⟨_, _, rfl, hok, -, rfl⟩ | ⟨hop, hwf, -, -, rfl⟩ := exec_cases h
  · exact .inl rfl
  · exact .inl (s.kxRun_errcode key)
  · exact .inl (s.epRun_errcode input)
  · exact .inl rfl
  · exact .inr (.inl ⟨hok, rfl⟩)
  · exact .inr (.inr ⟨hwf, hop, rfl⟩)

/-- A well-formed command does not raise BADARG (60_exceptions.md R202). -/
theorem errcode_eq_badarg_of_exec {i : Instr} {s t : State} (h : exec i s = .next t) (hi : i.wellFormed = true)
    (ht : t.errcode = .badarg) : s.errcode = .badarg := by
  obtain hsame | ⟨hwf, -⟩ | ⟨-, -, hnokey⟩ := exec_errcode_cases h
  · exact hsame.symm.trans ht
  · simp [hi] at hwf
  · simp [ht] at hnokey

/-- Settles O17: step 2 of the decode order. -/
theorem badcmdRaised : Obligations.BadcmdRaised := by
  intro s op operand herr hop
  have h := decodeOrder s op operand
  rwa [if_neg (Bool.eq_false_iff.1 herr), if_pos (opcode_reserved_iff.2 hop)] at h

/-- Settles O18: RDRK is malformed exactly on such an operand; EXPANDKEY and ENCRYPT are always well formed. -/
theorem badargRaised : Obligations.BadargRaised := by
  refine ⟨fun reserved n s herr hbad => ?_, fun operand s t h => ?_⟩
  · exact exec_of_malformed herr (rdrkOperandOk_eq_false_iff.2 hbad)
  · obtain h | h := h
    · exact errcode_eq_badarg_of_exec h rfl
    · exact errcode_eq_badarg_of_exec h rfl

/-- Settles O20: step 1 of the decode order, whatever the word decodes to. -/
theorem stickyErrorRefusesAll : Obligations.StickyErrorRefusesAll :=
  fun _ c herr => issue_of_err c herr

end Sys2Proof.Machine
end

section
/-! PROOFS. The two round trips of the encoding (30_encoding.md sections 2 and 3). -/

namespace Sys2Proof

/-- A word decodes to a command exactly when the command has the word's two fields (30_encoding.md R81, R83). -/
theorem decode_eq_ok_iff {c : CmdWord} {i : Instr} :
    decode c = .ok i ↔ i.opcode = cmdOp c ∧ i.operand = cmdOperand c := by
  constructor
  · intro h
    rw [← Machine.cmdWord_cmdOp_cmdOperand c] at h
    by_cases hop : cmdOp c = 0x01 ∨ cmdOp c = 0x02 ∨ cmdOp c = 0x03
    · obtain ⟨j, hj, hopcode, hoperand⟩ := exists_decode_cmdWord (cmdOperand c) hop
      obtain rfl : j = i := Except.ok.inj (hj.symm.trans h)
      exact ⟨hopcode, hoperand⟩
    · rw [decode_cmdWord_reserved _ (by tauto)] at h
      cases h
  · rintro ⟨hopcode, hoperand⟩
    rw [← Machine.cmdWord_cmdOp_cmdOperand c, ← hopcode, ← hoperand]
    cases i with
    | expandkey key => simp [decode, Instr.opcode, Instr.operand]
    | encrypt input => simp [decode, Instr.opcode, Instr.operand]
    | rdrk reserved n => simp [decode, Instr.opcode, Instr.operand]

/-- The fields of a command's word are the command's (30_encoding.md R81). -/
@[simp] theorem cmdOp_encode (i : Instr) : cmdOp (encode i) = i.opcode := Laws.cmdOp_cmdWord _ _
@[simp] theorem cmdOperand_encode (i : Instr) : cmdOperand (encode i) = i.operand := Laws.cmdOperand_cmdWord _ _

/-- Settles O1: a command has the fields of its own word. -/
theorem decodeEncodeRoundTrip : Obligations.DecodeEncodeRoundTrip :=
  fun i => decode_eq_ok_iff.2 ⟨(cmdOp_encode i).symm, (cmdOperand_encode i).symm⟩

/-- Settles O2: a command read from a word has its two fields, and the word is made of them. -/
theorem encodeDecodeRoundTrip : Obligations.EncodeDecodeRoundTrip := by
  intro c i h
  obtain ⟨hopcode, hoperand⟩ := decode_eq_ok_iff.1 h
  rw [encode, hopcode, hoperand, Machine.cmdWord_cmdOp_cmdOperand]

/-- Settles O4: each word has the opcode and the operand that its digits show. -/
theorem specWordsDecode : Obligations.SpecWordsDecode := by
  refine ⟨?_, ?_, ?_, ?_, ?_, ?_, ?_, ?_⟩ <;> decide

end Sys2Proof
end

section
/-! PROOFS. The invariant of the block: what keeps it, said once for each change a command makes, then for commands,
transactions, steps and runs (10_state.md sections 2 to 6). -/

namespace Sys2Proof.Machine

/-- The coming transactions of the host are no part of the invariant (log entry 3). -/
@[simp] theorem State.setPort_inv_iff {s : State} {p : List Transaction} : (s.setPort p).Inv ↔ s.Inv := Iff.rfl

/-- The captured copy ends with the command (10_state.md R29). -/
@[simp] theorem State.endCommand_setCaptured (s : State) (v : Option CmdWord) :
    (s.setCaptured v).endCommand = s.endCommand := rfl

theorem State.endCommand_refuse (s : State) (cause : ErrCode) :
    (s.refuse cause).endCommand = s.endCommand.refuse cause := by
  have herr : s.endCommand.err = s.err := rfl
  unfold State.refuse
  rw [herr]
  split <;> rfl

/-- Between transactions there is no captured copy to end (10_state.md R29). -/
theorem State.Inv.endCommand_eq {s : State} (h : s.Inv) : s.endCommand = s := by
  obtain ⟨-, -, -, hcaptured, -⟩ := h
  exact State.ext_fields rfl rfl rfl rfl rfl rfl hcaptured.symm rfl rfl rfl rfl rfl

/-- With a key, `W` holds its schedule (10_state.md R22). -/
theorem State.Inv.exists_holdsSchedule {s : State} (h : s.Inv) (hkey : s.kvalid = true) :
    ∃ key, s.HoldsSchedule (keyExpansion key) := by
  obtain ⟨⟨hsome, -⟩, -⟩ := h
  exact hsome hkey

/-- With `ERR = 0` the code is 0 (10_state.md R27). -/
theorem State.Inv.errcode_eq {s : State} (h : s.Inv) (herr : s.err = false) : s.errcode = .noError := by
  obtain ⟨-, -, ⟨hcode, -⟩, -⟩ := h
  exact hcode.1 herr

/-- Settles O24: the flags are 0 and no element has a value. -/
theorem invAtReset : Obligations.InvAtReset := by
  refine ⟨⟨nofun, fun _ => rfl⟩, ⟨rfl, nofun⟩, ⟨?_, nofun⟩, rfl, rfl, rfl, rfl, rfl⟩
  exact ⟨fun _ => rfl, fun _ => rfl⟩

/-- A schedule expanded while `ERR = 0` (40_key_expansion.md R106). -/
theorem State.Inv.installSchedule {s : State} (h : s.Inv) (herr : s.err = false) (key : Block) :
    ({ s with w := (keyExpansion key).map some, kvalid := true, t := none, ki := none } : State).Inv := by
  have hcode : s.errcode = .noError := h.errcode_eq herr
  obtain ⟨-, ⟨hdout, -⟩, ⟨herrcode, -⟩, hcaptured, hmatrix, -, hrnd, -⟩ := h
  refine ⟨⟨fun _ => ⟨key, rfl⟩, nofun⟩, ⟨hdout, fun _ => rfl⟩, ⟨herrcode, fun hnokey => ?_⟩, hcaptured, hmatrix, rfl, hrnd, rfl⟩
  simp [hcode] at hnokey

/-- A result with a value, written while there is a key (10_state.md R25, note under R28). -/
theorem State.Inv.setResult {s : State} (h : s.Inv) (hkey : s.kvalid = true) (b : Block) :
    ({ s with dout := some b, dvalid := true } : State).Inv := by
  obtain ⟨hstore, -, herror, hquiet⟩ := h
  exact ⟨hstore, ⟨rfl, fun _ => hkey⟩, herror, hquiet⟩

/-- The end of the pipeline (10_state.md R30, R32). -/
theorem State.Inv.clearPipeline {s : State} (h : s.Inv) : ({ s with matrix := none, rnd := none } : State).Inv := by
  obtain ⟨hstore, hresult, herror, hcaptured, -, ht, -, hki⟩ := h
  exact ⟨hstore, hresult, herror, hcaptured, rfl, ht, rfl, hki⟩

/-- A refusal with the code of a cause, NOKEY only without a key (10_state.md R27, 60_exceptions.md R204). -/
theorem State.Inv.setError {s : State} (h : s.Inv) {cause : ErrCode} (hcause : cause ≠ .noError)
    (hnokey : cause = .nokey → s.kvalid = false) : (s.setError cause).Inv := by
  obtain ⟨hstore, hresult, -, hquiet⟩ := h
  exact ⟨hstore, hresult, ⟨by simp [hcause], hnokey⟩, hquiet⟩

/-- A reserved opcode, whether it is refused or ignored (60_exceptions.md R201, R205). -/
theorem State.Inv.refuse_badcmd {s : State} (h : s.Inv) : (s.refuse .badcmd).Inv := by
  by_cases herr : s.err = true
  · rwa [State.refuse_of_err herr]
  · rw [State.refuse_of_no_err (Bool.eq_false_iff.2 herr)]
    exact h.setError (by decide) nofun

/-- A command keeps the invariant: the state it leaves, its captured copy ended, meets it (R106, R124, R160, R204). -/
theorem State.Inv.of_exec {i : Instr} {s t : State} (h : s.endCommand.Inv) (hexec : exec i s = .next t) :
    t.endCommand.Inv := by
  obtain ⟨-, rfl⟩ | ⟨key, -, herr, rfl⟩ | ⟨input, -, -, hkey, rfl⟩ | ⟨_, _, r, -, -, -, -, hkey, rfl⟩ |
    ⟨_, _, -, -, -, rfl⟩ | ⟨-, -, -, hkey, rfl⟩ := exec_cases hexec
  · exact h
  · rw [State.kxRun_eq]
    exact h.installSchedule herr key
  · obtain ⟨key, hw⟩ := h.exists_holdsSchedule hkey
    rw [State.epRun_eq input (State.holdsSchedule_endCommand.1 hw)]
    exact (h.setResult hkey _).clearPipeline
  · obtain ⟨key, hw⟩ := h.exists_holdsSchedule hkey
    rw [State.rdrkRun_of_holdsSchedule (State.holdsSchedule_endCommand.1 hw)]
    exact h.setResult hkey _
  · exact h.setError (cause := .badarg) (by decide) nofun
  · exact h.setError (cause := .nokey) (by decide) fun _ => hkey

/-- A transaction keeps the invariant (30_encoding.md R80). -/
theorem State.Inv.of_perform {tr : Transaction} {s t : State} (h : s.Inv)
    (hperform : perform tr s = .next t) : t.Inv := by
  have hcaptured (c : CmdWord) : (s.setCaptured (some c)).endCommand.Inv := by
    rwa [State.endCommand_setCaptured, h.endCommand_eq]
  obtain ⟨-, rfl⟩ | ⟨c, i, u, -, -, hexec, rfl⟩ | ⟨c, op, -, -, rfl⟩ := perform_cases hperform
  · exact invAtReset
  · exact State.Inv.of_exec (hcaptured c) hexec
  · rw [State.endCommand_refuse]
    exact (hcaptured c).refuse_badcmd

/-- Settles O25: a step performs one transaction or none. -/
theorem invKeptByStep : Obligations.InvKeptByStep := by
  intro s t h hstep
  obtain ⟨-, rfl⟩ | ⟨tr, rest, -, hperform⟩ := step_cases hstep
  · exact h
  · exact (State.setPort_inv_iff.2 h).of_perform hperform

end Sys2Proof.Machine
end

section
/-! PROOFS. The frames of the three commands (10_state.md section 7). -/

namespace Sys2Proof.Machine

/-- Settles O11: EXPANDKEY is no change while `ERR = 1`, and otherwise one change of the four elements. -/
theorem expandkeyFrame : Obligations.ExpandkeyFrame := by
  intro key s t h
  rw [exec_expandkey, State.kxRun_eq] at h
  cases h
  split <;> exact ⟨rfl, rfl, rfl, rfl, rfl, rfl, rfl, rfl⟩

/-- Settles O13: ENCRYPT is ignored, runs the pipeline, or is refused with NOKEY. -/
theorem encryptFrame : Obligations.EncryptFrame := by
  intro input s t h
  obtain ⟨herr, rfl⟩ | ⟨_, hi, -⟩ | ⟨input', -, herr, hkey, rfl⟩ | ⟨_, _, _, hi, -⟩ | ⟨_, _, hi, -⟩ |
    ⟨-, -, herr, hkey, rfl⟩ := exec_cases h
  · exact ⟨fun _ => rfl, rfl, rfl, rfl, rfl, rfl, rfl, fun _ => ⟨rfl, rfl⟩, fun _ => ⟨rfl, rfl, rfl, rfl⟩⟩
  · cases hi
  · obtain ⟨hw, hkvalid, herr', herrcode, hcaptured, ht, hki, hport⟩ := s.epRun_frame input'
    refine ⟨fun i => by rw [State.readWord, hw, State.readWord], hw, hkvalid, hcaptured, ht, hki, hport,
      fun _ => ⟨herr', herrcode⟩, fun hrefused => ?_⟩
    simp [herr, hkey] at hrefused
  · cases hi
  · cases hi
  · refine ⟨fun _ => rfl, rfl, rfl, rfl, rfl, rfl, rfl, fun haccepted => ?_, fun _ => ⟨rfl, rfl, rfl, rfl⟩⟩
    simp [hkey] at haccepted

/-- Settles O15: RDRK is ignored, writes its result, or is refused with BADARG or NOKEY. -/
theorem rdrkFrame : Obligations.RdrkFrame := by
  intro reserved n s t h
  obtain ⟨-, rfl⟩ | ⟨_, hi, -⟩ | ⟨_, hi, -⟩ | ⟨_, _, r, -, -, -, -, -, rfl⟩ | ⟨_, _, -, -, -, rfl⟩ |
    ⟨-, -, -, -, rfl⟩ := exec_cases h
  · exact ⟨fun _ => rfl, rfl, rfl, rfl, rfl, rfl, rfl, rfl, rfl, .inl ⟨rfl, rfl⟩⟩
  · cases hi
  · cases hi
  · exact ⟨fun _ => rfl, rfl, rfl, rfl, rfl, rfl, rfl, rfl, rfl, .inl ⟨rfl, rfl⟩⟩
  · exact ⟨fun _ => rfl, rfl, rfl, rfl, rfl, rfl, rfl, rfl, rfl, .inr ⟨rfl, rfl⟩⟩
  · exact ⟨fun _ => rfl, rfl, rfl, rfl, rfl, rfl, rfl, rfl, rfl, .inr ⟨rfl, rfl⟩⟩

end Sys2Proof.Machine
end

section
/-! PROOFS. A step and its transaction: what is taken off the host's stream, what `reset` leaves, and that every step
commits (00_scope.md R9, 10_state.md R37, 70_reset_and_hazards.md section 4). -/

namespace Sys2Proof.Machine

/-- Settles O6: the two cases of the host's stream. -/
theorem stepTakesNextTransaction : Obligations.StepTakesNextTransaction := by
  refine ⟨fun s tr rest hport => ?_, fun s hport => step_idle hport⟩
  rw [step, performNext, hport]
  rfl

/-- Settles O5: the step issues the word, and the word decodes. -/
theorem stepRunsDecodedCommand : Obligations.StepRunsDecodedCommand := by
  intro s c i rest hport hdec
  rw [stepTakesNextTransaction.1 s _ rest hport, perform, issue_of_decode hdec]
  rfl

/-- After a `reset` the host sees `STATUS = 0x00` (10_state.md R37). -/
theorem State.resetBlock_status (s : State) : s.resetBlock.status = 0x00 := by
  have hreset : State.reset.status = 0x00 := by decide
  exact hreset

/-- Settles O7: the fields of the block's reset. -/
theorem resetTransaction : Obligations.ResetTransaction := by
  refine fun s => ⟨s.resetBlock, rfl, rfl, rfl, rfl, rfl, s.resetBlock_status, s.readWord_resetBlock, rfl, rfl, rfl, rfl,
    rfl, rfl, rfl, fun hport => ?_⟩
  rw [State.resetBlock, hport]
  rfl

/-- No command touches the host's stream (10_state.md section 7; log entry 3). -/
theorem exec_port {i : Instr} {s t : State} (h : exec i s = .next t) : t.port = s.port := by
  cases i with
  | expandkey key =>
    obtain ⟨-, -, -, -, -, -, -, hport⟩ := expandkeyFrame key s t h
    exact hport
  | encrypt input =>
    obtain ⟨-, -, -, -, -, -, hport, -⟩ := encryptFrame input s t h
    exact hport
  | rdrk reserved n =>
    obtain ⟨-, -, -, -, -, -, -, -, hport, -⟩ := rdrkFrame reserved n s t h
    exact hport

/-- Every transaction answers a next state and leaves the coming ones alone (70_reset_and_hazards.md section 4). -/
theorem perform_next (tr : Transaction) (s : State) : ∃ t, perform tr s = .next t ∧ t.port = s.port := by
  cases tr with
  | reset => exact ⟨_, rfl, rfl⟩
  | issue c =>
    match hdec : decode c with
    | .ok i =>
      obtain ⟨t, ht⟩ := exec_next i (s.setCaptured (some c))
      have hport := exec_port ht
      exact ⟨_, issue_of_exec hdec ht, hport⟩
    | .error (.reservedOpcode _) =>
      refine ⟨_, issue_of_reserved hdec s, ?_⟩
      rw [State.endCommand_refuse, State.refuse]
      split <;> rfl

/-- Settles O9: the step holds the state or performs the first transaction of the stream. -/
theorem everyStepCommits : Obligations.EveryStepCommits := by
  intro s
  match hport : s.port with
  | [] => exact ⟨s, step_idle hport, hport⟩
  | tr :: rest =>
    rw [stepTakesNextTransaction.1 s tr rest hport]
    exact perform_next tr _

end Sys2Proof.Machine
end

section
/-! PROOFS. Refusals and flags: NOKEY, the precision of a refusal, and what only `reset` clears (60_exceptions.md sections
2 and 3, 10_state.md sections 2 to 4). -/

namespace Sys2Proof.Machine

/-- Settles O19: step 4 of the decode order; EXPANDKEY leaves `ERRCODE` alone. -/
theorem nokeyRaised : Obligations.NokeyRaised := by
  refine ⟨fun i s hi hop herr hkey => exec_of_no_key herr hi hop hkey, fun key s t h ht => ?_⟩
  obtain ⟨-, -, -, herrcode, -⟩ := expandkeyFrame key s t h
  exact herrcode.symm.trans ht

/-- A command that raises `ERR` writes `ERR` and the code of a cause, and nothing else (60_exceptions.md R204). -/
theorem exec_precise {i : Instr} {s t : State} (h : exec i s = .next t) (herr : s.err = false) (ht : t.err = true) :
    t.errcode ≠ .noError ∧ t = s.setError t.errcode := by
  obtain ⟨herr', rfl⟩ | ⟨key, -, -, rfl⟩ | ⟨input, -, -, -, rfl⟩ | ⟨_, _, r, -, -, -, -, -, rfl⟩ |
    ⟨_, _, -, -, -, rfl⟩ | ⟨-, -, -, -, rfl⟩ := exec_cases h
  · simp [herr] at herr'
  · simp [herr] at ht
  · obtain ⟨-, -, herr', -⟩ := s.epRun_frame input
    simp [herr, herr'] at ht
  · simp [State.rdrkRun, State.writeResult, herr] at ht
  · exact ⟨by simp, rfl⟩
  · exact ⟨by simp, rfl⟩

/-- Settles O21: a `reset` clears `ERR`, a command that raises it is precise, a reserved opcode raises BADCMD. -/
theorem refusalIsPrecise : Obligations.RefusalIsPrecise := by
  intro tr s t herr h ht
  obtain ⟨-, rfl⟩ | ⟨c, i, u, -, -, hexec, rfl⟩ | ⟨c, op, -, -, rfl⟩ := perform_cases h
  · cases ht
  · obtain ⟨hcause, hu⟩ := exec_precise hexec herr ht
    exact ⟨hcause, congrArg State.endCommand hu⟩
  · rw [State.refuse_of_no_err (s := s.setCaptured (some c)) herr]
    exact ⟨nofun, rfl⟩

/-- The pipeline ends with the store, which sets `DVALID` (41_encrypt_block.md R125). -/
theorem State.epRun_dvalid (s : State) (input : Block) : (s.epRun input).dvalid = true := rfl

/-- A command clears no flag, and changes no recorded code (10_state.md R22, R25 to R27). -/
theorem exec_keeps_flags {i : Instr} {s t : State} (h : exec i s = .next t) : (s.kvalid = true → t.kvalid = true) ∧
    (s.dvalid = true → t.dvalid = true) ∧ (s.err = true → t.err = true ∧ t.errcode = s.errcode) := by
  obtain ⟨-, rfl⟩ | ⟨key, -, herr, rfl⟩ | ⟨input, -, herr, hkey, rfl⟩ | ⟨_, _, r, -, -, -, herr, -, rfl⟩ |
    ⟨_, _, -, -, herr, rfl⟩ | ⟨-, -, herr, -, rfl⟩ := exec_cases h
  · exact ⟨id, id, fun herr => ⟨herr, rfl⟩⟩
  · rw [State.kxRun_eq]
    exact ⟨fun _ => rfl, id, by simp [herr]⟩
  · obtain ⟨-, hkvalid, -⟩ := s.epRun_frame input
    exact ⟨fun _ => hkvalid.trans hkey, fun _ => s.epRun_dvalid input, by simp [herr]⟩
  · exact ⟨id, fun _ => rfl, by simp [herr]⟩
  · exact ⟨id, id, by simp [herr]⟩
  · exact ⟨id, id, by simp [herr]⟩

/-- Settles O23: a command clears no flag, and neither does the refusal of a reserved opcode. -/
theorem onlyResetClearsFlags : Obligations.OnlyResetClearsFlags := by
  intro tr s t h hreset
  obtain ⟨htr, -⟩ | ⟨c, i, u, -, -, hexec, rfl⟩ | ⟨c, op, -, -, rfl⟩ := perform_cases h
  · exact absurd htr hreset
  · have hflags := exec_keeps_flags hexec
    exact hflags
  · rw [State.endCommand_refuse, State.refuse]
    split
    · exact ⟨id, id, fun herr => ⟨herr, rfl⟩⟩
    · rename_i herr
      exact ⟨id, id, fun herr' => absurd herr' herr⟩

end Sys2Proof.Machine
end

section
/-! PROOFS. What accepted commands deliver to the host, from every state (10_state.md section 8, 40_key_expansion.md
section 2, 41_encrypt_block.md section 2, 43_system_commands.md section 1). -/

namespace Sys2Proof.Machine

/-- EXPANDKEY with `ERR = 0`, as one change of the state (40_key_expansion.md R106). -/
theorem exec_expandkey_of_no_err {s : State} (herr : s.err = false) (key : Block) : exec (.expandkey key) s =
    .next { s with w := (keyExpansion key).map some, kvalid := true, t := none, ki := none } := by
  obtain ⟨hexec, -, -⟩ := expandkeyInstallsSchedule key s
  exact hexec herr

/-- Settles O16: RDRK after EXPANDKEY reads the expanded schedule. -/
theorem rdrkDeliversExpandedKey : Obligations.RdrkDeliversExpandedKey := by
  intro key s r herr
  have hround : (BitVec.ofNat 8 r.val).toNat = r.val := by
    rw [BitVec.toNat_ofNat]
    omega
  exact ⟨_, _, exec_expandkey_of_no_err herr key,
    exec_rdrk_of_holdsSchedule (w := keyExpansion key) rfl herr rfl hround, rfl, herr⟩

/-- After EXPANDKEY the store holds its schedule, and the ENCRYPT that follows it shows a result that depends on nothing
else (40_key_expansion.md R106). -/
theorem encrypt_after_expandkey {key input : Block} {s s1 s2 : State} (herr : s.err = false)
    (h1 : exec (.expandkey key) s = .next s1) (h2 : exec (.encrypt input) s1 = .next s2) :
    s1.HoldsSchedule (keyExpansion key) ∧ s2.observeDout = some (cipher input (keyExpansion key)) := by
  obtain ⟨-, hboth, -⟩ := expandkeyInstallsSchedule key s
  obtain ⟨u1, u2, hu1, hu2, hdout, -⟩ := hboth herr input
  obtain rfl : u1 = s1 := Host.Outcome.next.inj (hu1.symm.trans h1)
  obtain rfl : u2 = s2 := Host.Outcome.next.inj (hu2.symm.trans h2)
  rw [exec_expandkey_of_no_err herr] at h1
  cases h1
  exact ⟨rfl, hdout⟩

/-- Settles O30: what either block holds and shows depends on the key and the input only. -/
theorem encryptAfterRekeyIgnoresPast : Obligations.EncryptAfterRekeyIgnoresPast := by
  intro key input a b a1 b1 a2 b2 ha hb ha1 hb1 ha2 hb2
  obtain ⟨haw, hadout⟩ := encrypt_after_expandkey ha ha1 ha2
  obtain ⟨hbw, hbdout⟩ := encrypt_after_expandkey hb hb1 hb2
  exact ⟨haw.trans hbw.symm, hadout.trans hbdout.symm⟩

/-- Every word of a store that holds a schedule has a value (10_state.md R22). -/
theorem State.isSome_readWord {s : State} {w : Schedule} (hw : s.HoldsSchedule w) (j : Fin 44) :
    (s.readWord j).isSome = true := by
  rw [State.readWord_of_holds hw]
  rfl

/-- Settles O29: EXPANDKEY leaves a schedule; ENCRYPT and RDRK find one there, by the invariant, and read their result
from it. -/
theorem acceptedResultsHaveValues : Obligations.AcceptedResultsHaveValues := by
  intro i s h herr hi haccepted
  cases i with
  | expandkey key =>
    exact ⟨_, exec_expandkey_of_no_err herr key, herr, rfl, State.isSome_readWord (w := keyExpansion key) rfl,
      fun hop => absurd rfl hop⟩
  | encrypt input =>
    have hkey : s.kvalid = true := haccepted.resolve_left (by simp [Instr.opcode])
    obtain ⟨key, hw⟩ := h.exists_holdsSchedule hkey
    exact ⟨_, exec_encrypt_of_holdsSchedule input hw herr hkey, herr, hkey, State.isSome_readWord hw, fun _ => rfl⟩
  | rdrk reserved n =>
    have hkey : s.kvalid = true := haccepted.resolve_left (by simp [Instr.opcode])
    obtain ⟨key, hw⟩ := h.exists_holdsSchedule hkey
    obtain ⟨rfl, hn⟩ := rdrkOperandOk_iff.1 hi
    exact ⟨_, exec_rdrk_of_holdsSchedule (r := ⟨n.toNat, by omega⟩) hw herr hkey rfl, herr, hkey,
      State.isSome_readWord hw, fun _ => rfl⟩

end Sys2Proof.Machine
end

section
/-! PROOFS. Runs that begin with `reset`, and the values of `STATUS` at their ends (43_system_commands.md section 5,
10_state.md section 5). -/

namespace Sys2Proof.Machine

/-- A run goes on from the state its first transaction leaves (20_memory.md R62). -/
theorem performAll_cons {tr : Transaction} {s t : State} (h : perform tr s = .next t) (trs : List Transaction) :
    performAll (tr :: trs) s = performAll trs t := by
  rw [performAll, h]

/-- A run from a state that meets the invariant has an end state, and it meets the invariant. -/
theorem State.Inv.exists_performAll (trs : List Transaction) :
    ∀ {s : State}, s.Inv → ∃ t, performAll trs s = .next t ∧ t.Inv := by
  induction trs with
  | nil => exact fun {s} h => ⟨s, rfl, h⟩
  | cons tr trs ih =>
    intro s h
    obtain ⟨u, hu, -⟩ := perform_next tr s
    rw [performAll_cons hu]
    exact ih (h.of_perform hu)

/-- Settles O26: the reset state meets the invariant, and every transaction keeps it. -/
theorem runsFromResetKeepInv : Obligations.RunsFromResetKeepInv :=
  fun _ => State.Inv.exists_performAll _ invAtReset

/-- One more transaction after a run. -/
theorem performAll_concat {trs : List Transaction} {tr : Transaction} {u t : State} :
    ∀ {s : State}, performAll trs s = .next u → perform tr u = .next t → performAll (trs ++ [tr]) s = .next t := by
  induction trs with
  | nil =>
    intro s hu ht
    cases hu
    exact performAll_cons ht []
  | cons a trs ih =>
    intro s hu ht
    obtain ⟨v, hv, -⟩ := perform_next a s
    rw [performAll_cons hv] at hu
    rw [List.cons_append, performAll_cons hv]
    exact ih hu ht

/-- A command's word is issued as the command (30_encoding.md R80). -/
theorem perform_encode {i : Instr} {s t : State} (h : exec i (s.setCaptured (some (encode i))) = .next t) :
    perform (.issue (encode i)) s = .next t.endCommand :=
  issue_of_exec (decodeEncodeRoundTrip i) h

/-- The `reset` that begins a run changes nothing in the reset state. -/
theorem runFromReset_eq (trs : List Transaction) : runFromReset trs = performAll trs State.reset := rfl

/-- EXPANDKEY issued with `ERR = 0`, and ENCRYPT issued to a keyed block with `ERR = 0` (R106, R124). -/
theorem perform_expandkey_of_no_err {s : State} (herr : s.err = false) (key : Block) :
    perform (.issue (encode (.expandkey key))) s = .next { s with
      w := (keyExpansion key).map some, kvalid := true, captured := none, t := none, ki := none } := by
  have hexec := exec_expandkey_of_no_err (s := s.setCaptured (some (encode (.expandkey key)))) herr key
  exact perform_encode hexec
theorem perform_encrypt_of_holdsSchedule {s : State} {w : Schedule} (hw : s.HoldsSchedule w) (herr : s.err = false)
    (hkey : s.kvalid = true) (input : Block) : perform (.issue (encode (.encrypt input))) s = .next { s with
      dout := some (cipher input w), dvalid := true, captured := none, matrix := none, rnd := none } := by
  have hexec := exec_encrypt_of_holdsSchedule (s := s.setCaptured (some (encode (.encrypt input)))) input hw herr hkey
  exact perform_encode hexec

/-- The run `RESET; EXPANDKEY k` (70_reset_and_hazards.md section 2). -/
theorem runFromReset_expandkey (key : Block) : runFromReset [.issue (encode (.expandkey key))] =
    .next { State.reset with w := (keyExpansion key).map some, kvalid := true } :=
  performAll_cons (perform_expandkey_of_no_err (s := State.reset) rfl key) []

/-- The run `RESET; EXPANDKEY k; ENCRYPT x` (70_reset_and_hazards.md section 2). -/
theorem runFromReset_expandkey_encrypt (key input : Block) :
    runFromReset [.issue (encode (.expandkey key)), .issue (encode (.encrypt input))] =
      .next { State.reset with
        w := (keyExpansion key).map some, kvalid := true, dout := some (cipher input (keyExpansion key)),
        dvalid := true } :=
  performAll_concat (runFromReset_expandkey key) <|
    perform_encrypt_of_holdsSchedule (s := { State.reset with w := (keyExpansion key).map some, kvalid := true })
      rfl rfl rfl input

/-- The byte of the flags and the code (10_state.md R28). -/
def statusByte (kvalid dvalid err : Bool) (errcode : ErrCode) : Byte :=
  (0 : BitVec 3) ++ errcode.code ++ BitVec.ofBool err ++ BitVec.ofBool dvalid ++ BitVec.ofBool kvalid
theorem State.status_eq (s : State) : s.status = statusByte s.kvalid s.dvalid s.err s.errcode := rfl

/-- Settles O28: the fields of the byte, flag by flag. -/
theorem statusFields : Obligations.StatusFields := by
  intro s
  rw [State.status_eq]
  generalize s.kvalid = kvalid, s.dvalid = dvalid, s.err = err, s.errcode = errcode
  revert kvalid dvalid err
  cases errcode <;> decide

/-- Settles O31: the state at the end of the run, written out. -/
theorem minimalRun : Obligations.MinimalRun := by
  refine fun key input => ⟨_, runFromReset_expandkey_encrypt key input, ?_, rfl⟩
  have hstatus : statusByte true true false .noError = 0x03 := by decide
  exact hstatus

/-- A run from `reset` ends with these flags and this code. -/
def RunEndsWith (kvalid dvalid err : Bool) (errcode : ErrCode) : Prop :=
  ∃ trs t, runFromReset trs = .next t ∧
    t.kvalid = kvalid ∧ t.dvalid = dvalid ∧ t.err = err ∧ t.errcode = errcode

/-- The three clean ends: no key, a key, and a key with a result (43_system_commands.md R164). -/
theorem runEndsWith_reset : RunEndsWith false false false .noError :=
  ⟨[], _, runFromReset_eq [], rfl, rfl, rfl, rfl⟩
theorem runEndsWith_keyed : RunEndsWith true false false .noError :=
  ⟨_, _, runFromReset_expandkey 0, rfl, rfl, rfl, rfl⟩
theorem runEndsWith_result : RunEndsWith true true false .noError :=
  ⟨_, _, runFromReset_expandkey_encrypt 0 0, rfl, rfl, rfl, rfl⟩

/-- After a clean run each cause can be raised, NOKEY without a key (60_exceptions.md R201 to R203). -/
theorem RunEndsWith.badcmd {kvalid dvalid : Bool} {errcode : ErrCode} (h : RunEndsWith kvalid dvalid false errcode) :
    RunEndsWith kvalid dvalid true .badcmd := by
  obtain ⟨trs, t, hrun, hkey, hdvalid, herr, -⟩ := h
  have hperform : perform (.issue (cmdWord 0x00 0)) t = _ := badcmdRaised t 0x00 0 herr (.inl rfl)
  exact ⟨_, _, performAll_concat hrun hperform, hkey, hdvalid, rfl, rfl⟩
theorem RunEndsWith.badarg {kvalid dvalid : Bool} {errcode : ErrCode} (h : RunEndsWith kvalid dvalid false errcode) :
    RunEndsWith kvalid dvalid true .badarg := by
  obtain ⟨trs, t, hrun, hkey, hdvalid, herr, -⟩ := h
  have hexec := exec_of_malformed (i := .rdrk 0 11) (s := t.setCaptured (some (encode (.rdrk 0 11)))) herr (by decide)
  exact ⟨_, _, performAll_concat hrun (perform_encode hexec), hkey, hdvalid, rfl, rfl⟩
theorem RunEndsWith.nokey {dvalid : Bool} {errcode : ErrCode} (h : RunEndsWith false dvalid false errcode) :
    RunEndsWith false dvalid true .nokey := by
  obtain ⟨trs, t, hrun, hkey, hdvalid, herr, -⟩ := h
  have hexec := exec_of_no_key (i := .encrypt 0) (s := t.setCaptured (some (encode (.encrypt 0)))) herr rfl
    (by decide) hkey
  exact ⟨_, _, performAll_concat hrun (perform_encode hexec), hkey, hdvalid, rfl, rfl⟩

/-- The host sees the byte of the flags a run ends with. -/
theorem RunEndsWith.exists_status {kvalid dvalid err : Bool} {errcode : ErrCode} {v : Byte}
    (h : RunEndsWith kvalid dvalid err errcode) (hv : statusByte kvalid dvalid err errcode = v) :
    ∃ trs t, runFromReset trs = .next t ∧ t.status = v := by
  obtain ⟨trs, t, hrun, rfl, rfl, rfl, rfl⟩ := h
  exact ⟨trs, t, hrun, hv⟩

/-- The ten values of `STATUS` that the note under 10_state.md R28 lists. -/
def statusValues : List Byte := [0x00, 0x01, 0x03, 0x0C, 0x0D, 0x0F, 0x14, 0x15, 0x17, 0x1C]

/-- The values that the invariant leaves for `STATUS` (10_state.md section 5). -/
theorem statusByte_mem {kvalid dvalid err : Bool} {errcode : ErrCode} (herr : err = false ↔ errcode = .noError)
    (hnokey : errcode = .nokey → kvalid = false) (hresult : dvalid = true → kvalid = true) :
    statusByte kvalid dvalid err errcode ∈ statusValues := by
  revert kvalid dvalid err
  cases errcode <;> decide
theorem State.Inv.status_mem {s : State} (h : s.Inv) : s.status ∈ statusValues := by
  obtain ⟨-, ⟨-, hresult⟩, ⟨herr, hnokey⟩, -⟩ := h
  exact statusByte_mem herr hnokey hresult

/-- A run from `reset` shows each of the ten values (43_system_commands.md section 5). -/
theorem exists_status_of_mem {v : Byte} (hv : v ∈ statusValues) :
    ∃ trs t, runFromReset trs = .next t ∧ t.status = v := by
  simp only [statusValues, List.mem_cons, List.not_mem_nil, or_false] at hv
  obtain rfl | rfl | rfl | rfl | rfl | rfl | rfl | rfl | rfl | rfl := hv
  · exact runEndsWith_reset.exists_status (by decide)
  · exact runEndsWith_keyed.exists_status (by decide)
  · exact runEndsWith_result.exists_status (by decide)
  · exact runEndsWith_reset.badcmd.exists_status (by decide)
  · exact runEndsWith_keyed.badcmd.exists_status (by decide)
  · exact runEndsWith_result.badcmd.exists_status (by decide)
  · exact runEndsWith_reset.badarg.exists_status (by decide)
  · exact runEndsWith_keyed.badarg.exists_status (by decide)
  · exact runEndsWith_result.badarg.exists_status (by decide)
  · exact runEndsWith_reset.nokey.exists_status (by decide)

/-- Settles O27: the invariant leaves ten values, every run keeps it, and three clean runs and a refusal after them show
each value. -/
theorem statusValuesReachable : Obligations.StatusValuesReachable := by
  refine ⟨fun s h => h.status_mem, fun v => ⟨exists_status_of_mem, ?_⟩⟩
  rintro ⟨trs, t, hrun, rfl⟩
  obtain ⟨u, hu, hinv⟩ := runsFromResetKeepInv trs
  obtain rfl : u = t := Host.Outcome.next.inj (hu.symm.trans hrun)
  exact hinv.status_mem

end Sys2Proof.Machine
end

section
/-! PROOFS. Round key by round key (40_key_expansion.md section 3). -/

namespace Sys2Proof.Machine

/-- The indices that the production of a word of round key `n + 1` reads (R101): its own place in round key `n`, and the
word just before it. -/
theorem four_le_roundWord_succ (k : Fin 10) (c : Fin 4) : 4 ≤ (roundWord k.succ c).val := by
  simp only [roundWord, Fin.val_succ]
  omega
theorem fourBack_roundWord_succ (k : Fin 10) (c : Fin 4) :
    fourBack (roundWord k.succ c) = roundWord k.castSucc c := by
  ext
  simp only [fourBack, roundWord, Fin.val_succ, Fin.val_castSucc]
  omega
theorem previous_roundWord_succ_zero (k : Fin 10) : previous (roundWord k.succ 0) = roundWord k.castSucc 3 := by
  ext
  simp only [previous, roundWord, Fin.val_succ, Fin.val_castSucc]
  omega
theorem previous_roundWord_succ (n : Fin 11) (c : Fin 3) : previous (roundWord n c.succ) = roundWord n c.castSucc := by
  ext
  simp only [previous, roundWord, Fin.val_succ, Fin.val_castSucc]
  omega

/-- The temporary of a round key's first word is the group's transform, that of the others the word itself (R101, R107). -/
theorem expandTemp_roundWord_zero (k : Fin 10) (t : Word) : expandTemp (roundWord k.succ 0) t = groupTransform k t := by
  have hmod : (roundWord k.succ 0).val % 4 = 0 := by simp only [roundWord]; omega
  have hrcon : rconIndex (roundWord k.succ 0) = k := by
    ext
    simp only [rconIndex, roundWord, Fin.val_succ]
    omega
  rw [expandTemp, if_pos hmod, hrcon, groupTransform]
theorem expandTemp_roundWord_succ (n : Fin 11) (c : Fin 3) (t : Word) : expandTemp (roundWord n c.succ) t = t := by
  have hmod : (roundWord n c.succ).val % 4 ≠ 0 := by simp only [roundWord, Fin.val_succ]; omega
  rw [expandTemp, if_neg hmod]

/-- The words of a round key after round key 0, the first one and the others (R107). -/
theorem getElem_keyExpansion_roundWord_zero (key : Block) (k : Fin 10) :
    (keyExpansion key)[roundWord k.succ 0] = (keyExpansion key)[roundWord k.castSucc 0] ^^^
      groupTransform k (keyExpansion key)[roundWord k.castSucc 3] := by
  have h := getElem_keyExpansion_of_le (key := key) (four_le_roundWord_succ k 0)
  simpa only [fourBack_roundWord_succ, previous_roundWord_succ_zero, expandTemp_roundWord_zero] using h
theorem getElem_keyExpansion_roundWord_succ (key : Block) (k : Fin 10) (c : Fin 3) :
    (keyExpansion key)[roundWord k.succ c.succ] = (keyExpansion key)[roundWord k.castSucc c.succ] ^^^
      (keyExpansion key)[roundWord k.succ c.castSucc] := by
  have h := getElem_keyExpansion_of_le (key := key) (four_le_roundWord_succ k c.succ)
  simpa only [fourBack_roundWord_succ, previous_roundWord_succ, expandTemp_roundWord_succ] using h

/-- Settles O34: the four words of a round key. -/
theorem roundKeyFromPrevious : Obligations.RoundKeyFromPrevious := by
  intro key k
  have h0 := getElem_keyExpansion_roundWord_zero key k
  have h1 := getElem_keyExpansion_roundWord_succ key k 0
  have h2 := getElem_keyExpansion_roundWord_succ key k 1
  have h3 := getElem_keyExpansion_roundWord_succ key k 2
  generalize keyExpansion key = w at *
  exact ⟨h0, h1, h2, h3⟩

end Sys2Proof.Machine
end

section
/-! PROOFS. The field of 256 elements (42_round_transformations.md R140, 20_memory.md R53): multiplication is additive and
associative, `a^256 = a`, and so the power of R53 is the multiplicative inverse. -/

namespace Sys2Proof.Machine

/-- Doubling is additive (R140). -/
theorem xtime_xor (a b : Byte) : xtime (a ^^^ b) = xtime a ^^^ xtime b := by
  have hreduce : (if (a ^^^ b).getLsbD 7 then 0x1B else 0x00 : Byte) =
      (if a.getLsbD 7 then 0x1B else 0x00) ^^^ (if b.getLsbD 7 then 0x1B else 0x00) := by
    rw [BitVec.getLsbD_xor]
    cases a.getLsbD 7 <;> cases b.getLsbD 7 <;> rfl
  simp only [xtime, hreduce, BitVec.shiftLeft_xor_distrib]
  ac_rfl
theorem xtime_zero : xtime 0 = 0 := by decide

/-- One coefficient more, at the constant term and at the top. -/
theorem gfMulBits_cons (a : Byte) (b : Bool) (bits : List Bool) :
    gfMulBits a (b :: bits) = (if b then a else 0) ^^^ xtime (gfMulBits a bits) := by
  rw [gfMulBits]
  congr 1
  induction bits generalizing a with
  | nil => exact xtime_zero.symm
  | cons c bits ih =>
    rw [gfMulBits, gfMulBits, ih, xtime_xor, apply_ite xtime, xtime_zero]
theorem gfMulBits_concat (a : Byte) (bits : List Bool) (b : Bool) :
    gfMulBits a (bits ++ [b]) = gfMulBits a bits ^^^ xtime^[bits.length] (if b then a else 0) := by
  induction bits with
  | nil => simp [gfMulBits]
  | cons c bits ih =>
    rw [List.cons_append, gfMulBits_cons, gfMulBits_cons, ih, xtime_xor, List.length_cons, Function.iterate_succ_apply',
      BitVec.xor_assoc]

/-- Multiplication is additive in its second factor. -/
theorem gfMulBits_map_xor (a b c : Byte) (l : List Nat) : gfMulBits a (l.map fun i => (b ^^^ c).getLsbD i) =
    gfMulBits a (l.map fun i => b.getLsbD i) ^^^ gfMulBits a (l.map fun i => c.getLsbD i) := by
  induction l with
  | nil => exact BitVec.xor_self.symm
  | cons i l ih =>
    have hbit : (if (b ^^^ c).getLsbD i then a else 0) =
        (if b.getLsbD i then a else 0) ^^^ (if c.getLsbD i then a else 0) := by
      rw [BitVec.getLsbD_xor]
      cases b.getLsbD i <;> cases c.getLsbD i <;> simp
    simp only [List.map_cons, gfMulBits_cons, ih, xtime_xor, hbit]
    ac_rfl
theorem gfMul_xor (a b c : Byte) : gfMul a (b ^^^ c) = gfMul a b ^^^ gfMul a c :=
  gfMulBits_map_xor a b c (List.range 8)
theorem gfMul_zero (a : Byte) : gfMul a 0 = 0 := by
  have h := gfMul_xor a 0 0
  rwa [BitVec.xor_self, BitVec.xor_self] at h

/-- Eight doublings are the multiplication by what is left of `x^8` modulo `0x11B`. -/
theorem gfMul_reduction : ∀ a : Byte, gfMul a 0x1B = xtime (xtime^[7] a) := by
  decide +kernel

/-- Doubling the second factor doubles the product. -/
theorem gfMul_xtime (a b : Byte) : gfMul a (xtime b) = xtime (gfMul a b) := by
  have hshift : gfMul a (b <<< 1) = xtime (gfMulBits a ((List.range 7).map fun i => b.getLsbD i)) := by
    simp [gfMul, List.range_succ, gfMulBits_cons]
  have htop : gfMul a b = gfMulBits a ((List.range 7).map fun i => b.getLsbD i) ^^^
      xtime^[7] (if b.getLsbD 7 then a else 0) := by
    rw [gfMul, List.range_succ, List.map_append]
    exact gfMulBits_concat a _ _
  have hreduce : gfMul a (if b.getLsbD 7 then 0x1B else 0x00) = xtime (xtime^[7] (if b.getLsbD 7 then a else 0)) := by
    split
    · exact gfMul_reduction a
    · exact gfMul_zero a
  rw [xtime, gfMul_xor, hshift, hreduce, htop, xtime_xor]

/-- Multiplication is associative. -/
theorem gfMul_gfMulBits (a b : Byte) (bits : List Bool) : gfMul a (gfMulBits b bits) = gfMulBits (gfMul a b) bits := by
  induction bits with
  | nil => exact gfMul_zero a
  | cons c bits ih => rw [gfMulBits_cons, gfMulBits_cons, gfMul_xor, gfMul_xtime, ih, apply_ite (gfMul a), gfMul_zero]
theorem gfMul_assoc (a b c : Byte) : gfMul (gfMul a b) c = gfMul a (gfMul b c) :=
  (gfMul_gfMulBits a b _).symm

/-- One is neutral on both sides. -/
theorem one_gfMul : ∀ a : Byte, gfMul 1 a = a := by
  decide +kernel
theorem gfMul_one : ∀ a : Byte, gfMul a 1 = a := by
  decide +kernel

/-- Exponents add. -/
theorem gfPow_add (a : Byte) (m n : Nat) : gfPow a (m + n) = gfMul (gfPow a m) (gfPow a n) := by
  induction m with
  | zero => rw [Nat.zero_add, gfPow, one_gfMul]
  | succ m ih => rw [Nat.succ_add, gfPow, ih, gfPow, gfMul_assoc]
theorem gfPow_one (a : Byte) : gfPow a 1 = a := gfMul_one a

/-- The square of a byte in the field. -/
def gfSquare (a : Byte) : Byte := gfMul a a
theorem gfPow_two_pow (a : Byte) (n : Nat) : gfPow a (2 ^ n) = gfSquare^[n] a := by
  induction n with
  | zero => exact gfPow_one a
  | succ n ih => rw [pow_succ, Nat.mul_two, gfPow_add, ih, Function.iterate_succ_apply', gfSquare]

/-- Squaring eight times is the identity, so `a^256 = a`. -/
theorem gfSquare_iterate_eight : ∀ a : Byte, gfSquare^[8] a = a := by
  decide +kernel

/-- A right inverse `b` of `a` is the power of R53: `a^255 = a^255 (a b) = a^256 b = a b = 1`, so
`a^254 = a^254 (a b) = a^255 b = b`. -/
theorem gfInv_eq_of_gfMul_eq_one {a b : Byte} (h : gfMul a b = 1) : gfInv a = b := by
  have hstep (n : Nat) : gfPow a n = gfMul (gfPow a (n + 1)) b := by
    rw [gfPow_add, gfPow_one, gfMul_assoc, h, gfMul_one]
  have h256 : gfPow a 256 = a := (gfPow_two_pow a 8).trans (gfSquare_iterate_eight a)
  rw [gfInv, hstep, hstep, h256, h, one_gfMul]

/-- The inverse of zero is given as zero (R53). -/
theorem gfInv_zero : gfInv 0 = 0 := by
  have hzero (bits : List Bool) : gfMulBits 0 bits = 0 := by
    induction bits with
    | nil => rfl
    | cons b bits ih =>
      rw [gfMulBits_cons, ih, xtime_zero, ite_self]
      rfl
  rw [gfInv, gfPow, gfMul, hzero]

end Sys2Proof.Machine
end

section
/-! PROOFS. The S-box listing against its algebraic definition (20_memory.md R52, R53). -/

namespace Sys2Proof.Machine

/-- The affine map of R53, and its inverse. -/
def sboxAffine (b : Byte) : Byte :=
  b ^^^ b.rotateLeft 1 ^^^ b.rotateLeft 2 ^^^ b.rotateLeft 3 ^^^ b.rotateLeft 4 ^^^ 0x63
def sboxAffineInverse (b : Byte) : Byte := b.rotateLeft 1 ^^^ b.rotateLeft 3 ^^^ b.rotateLeft 6 ^^^ 0x05
theorem sboxAffine_inverse : ∀ b : Byte, sboxAffine (sboxAffineInverse b) = b := by
  decide +kernel

/-- The inverse of a byte in the field as the listing has it: what the affine map turns into the entry (R53). -/
def listedInverse (a : Byte) : Byte := sboxAffineInverse (sbox a)

/-- The listing checked byte by byte: it holds an inverse of every byte but 0, and that of the inverse is the byte. -/
theorem gfMul_listedInverse : ∀ a : Byte, a ≠ 0 → gfMul a (listedInverse a) = 1 := by
  decide +kernel
theorem listedInverse_listedInverse : ∀ a : Byte, listedInverse (listedInverse a) = a := by
  decide +kernel

/-- The inverse in the listing is that of R53. -/
theorem gfInv_eq_listedInverse (a : Byte) : gfInv a = listedInverse a := by
  by_cases ha : a = 0
  · rw [ha, gfInv_zero]
    decide
  · exact gfInv_eq_of_gfMul_eq_one (gfMul_listedInverse a ha)

/-- The S-box is a permutation of the bytes (R53). -/
theorem sbox_injective : Function.Injective sbox := by
  intro a b h
  rw [← listedInverse_listedInverse a, ← listedInverse_listedInverse b, listedInverse, listedInverse, listedInverse,
    listedInverse, h]

/-- No byte maps to itself or to its complement (R53). -/
theorem sbox_ne : ∀ a : Byte, sbox a ≠ a ∧ sbox a ≠ a ^^^ 0xFF := by
  decide +kernel

/-- Settles O38: the listing holds the inverses of R53 under the affine map. -/
theorem sboxMatchesAlgebra : Obligations.SboxMatchesAlgebra := by
  refine ⟨fun a => ?_, fun a ha => ?_, gfInv_zero, @sbox_injective, sbox_ne, ?_⟩
  · have h : sboxAffine (gfInv a) = sbox a := by rw [gfInv_eq_listedInverse, listedInverse, sboxAffine_inverse]
    exact h.symm
  · rw [gfInv_eq_listedInverse, gfMul_listedInverse a ha]
  · decide

end Sys2Proof.Machine
end

section
/-! PROOFS. MixColumns on one column (42_round_transformations.md R140, R145): the column plus the sum of the column plus
twice its differences, so that four times MixColumns is the identity. -/

namespace Sys2Proof.Machine

/-- Doubling on numbers (R140). -/
theorem toNat_xtime : ∀ a : Byte,
    (xtime a).toNat = if a.toNat < 128 then 2 * a.toNat else (2 * a.toNat - 256) ^^^ 0x1B := by
  decide +kernel

/-- What stands twice in an XOR drops out. -/
theorem xor_xor_cancel_left {n : Nat} (a b : BitVec n) : a ^^^ (a ^^^ b) = b := by
  rw [← BitVec.xor_assoc, BitVec.xor_self, BitVec.zero_xor]
theorem xor_xor_cancel_right {n : Nat} (a b : BitVec n) : a ^^^ b ^^^ b = a := by
  rw [BitVec.xor_assoc, BitVec.xor_self, BitVec.xor_zero]
theorem xor_xor_xor_cancel {n : Nat} (a b c : BitVec n) : a ^^^ b ^^^ (b ^^^ c) = a ^^^ c := by
  rw [BitVec.xor_assoc, xor_xor_cancel_left]
theorem xor_left_comm {n : Nat} (a b c : BitVec n) : a ^^^ (b ^^^ c) = b ^^^ (a ^^^ c) := by
  ac_rfl

/-- The column that MixColumns makes of the column `v` (R145). -/
def mixColumn (v : Fin 4 → Byte) (r : Fin 4) : Byte := mixByte r (v 0) (v 1) (v 2) (v 3)
theorem Grid.at_mixColumns_eq_mixColumn (g : Grid) (c : Fin 4) :
    (fun r => Grid.at (Grid.mixColumns g) r c) = mixColumn fun r => Grid.at g r c :=
  funext fun r => Grid.at_mixColumns g r c

/-- MixColumns of a column is additive (R145). -/
theorem mixColumn_xor (v u : Fin 4 → Byte) (r : Fin 4) :
    mixColumn (fun i => v i ^^^ u i) r = mixColumn v r ^^^ mixColumn u r := by
  fin_cases r <;> simp only [mixColumn, mixByte, mul2, mul3, xtime_xor] <;> ac_rfl

/-- The four rows of R145 in one formula. -/
theorem mixColumn_eq (v : Fin 4 → Byte) (r : Fin 4) :
    mixColumn v r = v r ^^^ (v 0 ^^^ v 1 ^^^ v 2 ^^^ v 3) ^^^ xtime (v r ^^^ v (r + 1)) := by
  fin_cases r <;> simp [mixColumn, mixByte, mul2, mul3, xtime_xor] <;> grind

/-- A column of four equal bytes is unchanged (R145). -/
theorem mixColumn_same (v : Byte) (r : Fin 4) : mixColumn (fun _ => v) r = v := by
  simp [mixColumn_eq, xtime]

/-- The difference of two neighbours after MixColumns: the sum of the column drops out. -/
theorem mixColumn_xor_next (v : Fin 4 → Byte) (r : Fin 4) :
    mixColumn v r ^^^ mixColumn v (r + 1) = v r ^^^ v (r + 1) ^^^ xtime (v r ^^^ v (r + 2)) := by
  have hcommon (a b s x y : Byte) : a ^^^ s ^^^ x ^^^ (b ^^^ s ^^^ y) = a ^^^ b ^^^ (x ^^^ y) := by
    simp only [BitVec.xor_assoc, xor_left_comm b s, xor_left_comm x s, xor_xor_cancel_left, xor_left_comm x b]
  have hnext : r + 1 + 1 = r + 2 := by omega
  rw [mixColumn_eq, mixColumn_eq v (r + 1), hnext, hcommon, ← xtime_xor, xor_xor_xor_cancel]

/-- MixColumns keeps the sum of a column: both pairs of neighbours differ by the same double. -/
theorem mixColumn_sum (v : Fin 4 → Byte) :
    mixColumn v 0 ^^^ mixColumn v 1 ^^^ mixColumn v 2 ^^^ mixColumn v 3 = v 0 ^^^ v 1 ^^^ v 2 ^^^ v 3 := by
  have h01 : mixColumn v 0 ^^^ mixColumn v 1 = v 0 ^^^ v 1 ^^^ xtime (v 0 ^^^ v 2) := mixColumn_xor_next v 0
  have h23 : mixColumn v 2 ^^^ mixColumn v 3 = v 2 ^^^ v 3 ^^^ xtime (v 2 ^^^ v 0) := mixColumn_xor_next v 2
  rw [BitVec.xor_assoc, h01, h23, BitVec.xor_comm (v 2) (v 0), BitVec.xor_comm (v 2 ^^^ v 3), xor_xor_xor_cancel,
    ← BitVec.xor_assoc]

/-- MixColumns twice: the matrix of R145 squared. -/
theorem mixColumn_mixColumn (v : Fin 4 → Byte) (r : Fin 4) :
    mixColumn (mixColumn v) r = v r ^^^ xtime (xtime (v r ^^^ v (r + 2))) := by
  have hcancel (a s x y : Byte) : a ^^^ s ^^^ x ^^^ s ^^^ (x ^^^ y) = a ^^^ y := by
    simp only [BitVec.xor_assoc, xor_left_comm x s, xor_xor_cancel_left]
  rw [mixColumn_eq, mixColumn_sum, mixColumn_xor_next, mixColumn_eq, xtime_xor (v r ^^^ v (r + 1)), hcancel]

/-- MixColumns four times is the identity. -/
theorem mixColumn_four_times (v : Fin 4 → Byte) (r : Fin 4) :
    mixColumn (mixColumn (mixColumn (mixColumn v))) r = v r := by
  have hback : r + 2 + 2 = r := by omega
  have hdiff : mixColumn (mixColumn v) r ^^^ mixColumn (mixColumn v) (r + 2) = v r ^^^ v (r + 2) := by
    rw [mixColumn_mixColumn, mixColumn_mixColumn, hback, BitVec.xor_comm (v (r + 2)) (v r),
      BitVec.xor_comm (v (r + 2)) (xtime _), xor_xor_xor_cancel]
  rw [mixColumn_mixColumn, hdiff, mixColumn_mixColumn, xor_xor_cancel_right]

/-- Settles O39: the rows of the matrix as they stand, additivity and equal bytes column by column. -/
theorem mixColumnsLinear : Obligations.MixColumnsLinear := by
  refine ⟨toNat_xtime, fun g c => ⟨Grid.at_mixColumns g 0 c, Grid.at_mixColumns g 1 c, Grid.at_mixColumns g 2 c,
    Grid.at_mixColumns g 3 c⟩, fun g c h1 h2 h3 => ?_, fun g h r c => ?_, fun g c v hv r => ?_⟩
  · have hcolumn : (fun r => Grid.at (Grid.mixColumns g) r c) = fun r => mixByte r (Grid.at g 0 c) 0 0 0 := by
      funext r
      rw [Grid.at_mixColumns, h1, h2, h3]
    rw [hcolumn]
    refine ⟨fun h0 => ?_, fun h0 => ?_⟩ <;> rw [h0] <;> decide
  · simp only [Grid.at_mixColumns, Grid.at_ofFn]
    exact mixColumn_xor (fun r => Grid.at g r c) (fun r => Grid.at h r c) r
  · simp only [Grid.at_mixColumns, hv]
    exact mixColumn_same v r

end Sys2Proof.Machine
end

section
/-! PROOFS. ShiftRows, AddRoundKey and the block forms (42_round_transformations.md R144, R146, R148). -/

namespace Sys2Proof.Machine

/-- ShiftRows four times is the identity: `4r` places are none (R144). -/
theorem Grid.shiftRows_four_times (g : Grid) :
    Grid.shiftRows (Grid.shiftRows (Grid.shiftRows (Grid.shiftRows g))) = g :=
  Grid.ext_at fun r c => by
    have hfour : c + r + r + r + r = c := by omega
    simp only [Grid.at_shiftRows, hfour]

/-- Settles O41: addition in `Fin 4` is modulo 4. -/
theorem shiftRowsCyclic : Obligations.ShiftRowsCyclic := by
  refine ⟨fun g r c => Grid.at_shiftRows g r c, fun g c => ?_, Grid.shiftRows_four_times⟩
  have hback : c + 1 + 3 = c := by omega
  rw [Grid.at_shiftRows, hback]

/-- Byte `r` of a word by shift and mask (00_scope.md R8). -/
theorem wordByte_eq_shift (w : Word) (r : Fin 4) : wordByte w r = (w >>> (24 - 8 * r.val)).setWidth 8 := by
  apply BitVec.eq_of_getLsbD_eq
  intro i hi
  simp [wordByte, hi]

/-- AddRoundKey twice takes the round key off again (R146). -/
theorem Grid.addRoundKey_addRoundKey (rk : RoundKey) (g : Grid) : Grid.addRoundKey rk (Grid.addRoundKey rk g) = g :=
  Grid.ext_at fun r c => by rw [Grid.at_addRoundKey, Grid.at_addRoundKey, xor_xor_cancel_right]

/-- Settles O42: element by element, and byte by byte of the stored blocks. -/
theorem addRoundKeyIsBlockXor : Obligations.AddRoundKeyIsBlockXor := by
  refine fun w n g => ⟨fun r c => ?_, block_ext fun k => ?_, Grid.addRoundKey_addRoundKey _ g⟩
  · rw [Grid.at_addRoundKey, getElem_roundKey, wordByte_eq_shift]
    rfl
  · rw [blockByte_xor, blockByte_store, blockByte_store, Grid.at_addRoundKey, blockByte_toBlock]

/-- Settles O43: byte by byte of the stored blocks. -/
theorem blockFormsAgree : Obligations.BlockFormsAgree := by
  refine fun b => ⟨block_ext fun k => ?_, block_ext fun k => ?_, block_ext fun k => ?_⟩
  · rw [blockByte_store, Grid.at_subBytes, Grid.at_load, offset_row_col, blockSubBytes, blockByte_blockOfBytes]
  · rw [blockByte_store, Grid.at_shiftRows, Grid.at_load, blockShiftRows, blockByte_blockOfBytes]
  · rw [blockByte_store, Grid.at_mixColumns, blockMixColumns, blockByte_blockOfBytes]
    simp only [Grid.at_load]

end Sys2Proof.Machine
end

section
/-! PROOFS. For a fixed schedule the cipher is a permutation of the blocks: every transformation is injective
(41_encrypt_block.md section 1). -/

namespace Sys2Proof.Machine

theorem Grid.load_injective : Function.Injective Grid.load := Function.LeftInverse.injective Grid.store_load
theorem Grid.store_injective : Function.Injective Grid.store := Function.LeftInverse.injective Grid.load_store
theorem Grid.addRoundKey_injective (rk : RoundKey) : Function.Injective (Grid.addRoundKey rk) :=
  Function.LeftInverse.injective (Grid.addRoundKey_addRoundKey rk)
theorem Grid.shiftRows_injective : Function.Injective Grid.shiftRows :=
  Function.LeftInverse.injective (g := fun g => Grid.shiftRows (Grid.shiftRows (Grid.shiftRows g)))
    Grid.shiftRows_four_times
theorem Grid.subBytes_injective : Function.Injective Grid.subBytes := by
  refine fun g h hgh => Grid.ext_at fun r c => sbox_injective ?_
  rw [← Grid.at_subBytes, ← Grid.at_subBytes, hgh]
theorem Grid.mixColumns_injective : Function.Injective Grid.mixColumns := by
  refine fun g h hgh => Grid.ext_at fun r c => ?_
  have hcolumn : mixColumn (fun r => Grid.at g r c) = mixColumn (fun r => Grid.at h r c) := by
    rw [← Grid.at_mixColumns_eq_mixColumn, ← Grid.at_mixColumns_eq_mixColumn, hgh]
  rw [← mixColumn_four_times (fun r => Grid.at g r c) r, hcolumn, mixColumn_four_times]

/-- Rounds 1 to 9, the final round, and any number of rounds (R121). -/
theorem cipherRound_injective (w : Schedule) (n : Fin 11) : Function.Injective fun g => cipherRound w g n :=
  (Grid.addRoundKey_injective _).comp
    (Grid.mixColumns_injective.comp (Grid.shiftRows_injective.comp Grid.subBytes_injective))
theorem finalRound_injective (w : Schedule) : Function.Injective (finalRound w) :=
  (Grid.addRoundKey_injective _).comp (Grid.shiftRows_injective.comp Grid.subBytes_injective)
theorem foldl_cipherRound_injective (w : Schedule) (l : List (Fin 11)) :
    Function.Injective fun g => l.foldl (cipherRound w) g := by
  induction l with
  | nil => exact Function.injective_id
  | cons n l ih => exact ih.comp (cipherRound_injective w n)

/-- The round sequence (R121), and the cipher (R122). -/
theorem cipherGrid_injective (w : Schedule) : Function.Injective (cipherGrid w) := by
  intro g h hgh
  rw [cipherGrid, cipherGrid] at hgh
  exact Grid.addRoundKey_injective _ (foldl_cipherRound_injective w _ (finalRound_injective w hgh))
theorem cipher_injective (w : Schedule) : Function.Injective fun input => cipher input w :=
  Grid.store_injective.comp ((cipherGrid_injective w).comp Grid.load_injective)

/-- Settles O44: an injective function of a finite type to itself is a bijection. -/
theorem cipherIsPermutation : Obligations.CipherIsPermutation :=
  fun w => Finite.injective_iff_bijective.1 (cipher_injective w)

end Sys2Proof.Machine
end

section
/-! PROOFS. The client's counter `DT` (44_reference_client.md R184): its bytes from the last are its digits to base 256, and
the carry from byte to byte is the carry from digit to digit. -/

namespace Sys2Proof.Machine

/-- Counting up the first `n` digits: `256 ∣ v + 1` exactly when the first digit wraps (R184). -/
theorem incrementBytes_littleEndian (n v : Nat) : incrementBytes (littleEndian n v) = littleEndian n (v + 1) := by
  induction n generalizing v with
  | zero => rfl
  | succ n ih =>
    have hdigit : BitVec.ofNat 8 v + 1 = BitVec.ofNat 8 (v + 1) := (BitVec.ofNat_add v 1).symm
    have hwrap : BitVec.ofNat 8 (v + 1) = 0 ↔ (v + 1) % 256 = 0 := BitVec.toNat_inj.symm
    rw [littleEndian, littleEndian, incrementBytes, hdigit]
    split
    · rename_i h
      have hcarry : (v + 1) / 256 = v / 256 + 1 := by have := hwrap.1 h; omega
      rw [ih, hcarry, h]
    · rename_i h
      have hcarry : (v + 1) / 256 = v / 256 := by have := mt hwrap.2 h; omega
      rw [hcarry]

/-- The digits of a number one by one. -/
theorem length_littleEndian (n v : Nat) : (littleEndian n v).length = n := by
  induction n generalizing v with
  | zero => rfl
  | succ n ih => rw [littleEndian, List.length_cons, ih]
theorem getElem_littleEndian {n i : Nat} (v : Nat) (h : i < (littleEndian n v).length) :
    (littleEndian n v)[i] = BitVec.ofNat 8 (v / 256 ^ i) := by
  induction n generalizing v i with
  | zero => cases h
  | succ n ih =>
    cases i with
    | zero => simp [littleEndian]
    | succ i => simp [littleEndian, ih, Nat.div_div_eq_div_mul, Nat.pow_succ']

/-- Byte `k` of a block is digit `15 - k` of its number (00_scope.md R7). -/
theorem blockByte_ofNat (v : Nat) (k : Fin 16) :
    blockByte (BitVec.ofNat 128 v) k = BitVec.ofNat 8 (v / 256 ^ (15 - k.val)) := by
  have hpow : 256 ^ (15 - k.val) = 2 ^ (120 - 8 * k.val) := by
    rw [show (256 : Nat) = 2 ^ 8 from rfl, ← Nat.pow_mul]
    congr 1
    omega
  apply BitVec.eq_of_getLsbD_eq
  intro i hi
  have hlt : 120 - 8 * k.val + i < 128 := by omega
  rw [hpow, blockByte, BitVec.getLsbD_extractLsb', BitVec.getLsbD_ofNat, BitVec.getLsbD_ofNat, Nat.testBit_div_two_pow,
    Nat.add_comm i]
  simp [hi, hlt]

/-- The bytes of a block from the last are the digits of its number. -/
theorem blockBytes_ofNat (v : Nat) : blockBytes (BitVec.ofNat 128 v) = (littleEndian 16 v).reverse := by
  apply List.ext_getElem
  · simp [blockBytes, length_littleEndian]
  · intro k hk _
    have hk : k < 16 := by simpa [blockBytes] using hk
    simp [blockBytes, blockByte_ofNat, getElem_littleEndian, length_littleEndian]

/-- A block is made of its bytes (00_scope.md R7). -/
theorem blockOfList_blockBytes (b : Block) : blockOfList (blockBytes b) = b :=
  block_ext fun k => by simp [blockOfList, blockBytes]

/-- Settles O45: the bytes of `DT` and of `DT + 1` are the digits of two successive numbers. -/
theorem incrementDtIsSuccessor : Obligations.IncrementDtIsSuccessor := by
  intro dt
  calc incrementDt dt
    _ = incrementDt (BitVec.ofNat 128 dt.toNat) := by rw [BitVec.ofNat_toNat, BitVec.setWidth_eq]
    _ = blockOfList (blockBytes (BitVec.ofNat 128 (dt.toNat + 1))) := by
      rw [incrementDt, blockBytes_ofNat, blockBytes_ofNat, List.reverse_reverse, incrementBytes_littleEndian]
    _ = BitVec.ofNat 128 (dt.toNat + 1) := blockOfList_blockBytes _
    _ = dt + 1 := by
      rw [BitVec.ofNat_add, BitVec.ofNat_toNat, BitVec.setWidth_eq]
      rfl

end Sys2Proof.Machine
end

section
/-! PROOFS. The client's generator on a keyed block, in terms of the cipher (44_reference_client.md sections 4 to 6). -/

namespace Sys2Proof.Machine

/-- A block with `ERR = 0` and a key, whose store holds the schedule `w`. -/
structure State.KeyedWith (s : State) (w : Schedule) : Prop where
  holds : s.HoldsSchedule w
  kvalid_eq : s.kvalid = true
  err_eq : s.err = false

/-- EXPANDKEY with `ERR = 0` leaves a keyed block (40_key_expansion.md R106). -/
theorem State.kxRun_keyedWith {s : State} (herr : s.err = false) (key : Block) :
    (s.kxRun key).KeyedWith (keyExpansion key) := by
  rw [State.kxRun_eq]
  exact ⟨rfl, rfl, herr⟩

/-- `encryptBlock` on a keyed block answers the cipher and leaves the block keyed (R176, R187). -/
theorem clientEncrypt_of_keyedWith {s : State} {w : Schedule} (h : s.KeyedWith w) (x : Block) :
    ∃ s', clientEncrypt s x = (s', some (cipher x w)) ∧ s'.KeyedWith w := by
  obtain ⟨hw, hkey, herr⟩ := h
  refine ⟨{ s with dout := some (cipher x w), dvalid := true, matrix := none, rnd := none }, ?_, hw, hkey, herr⟩
  rw [clientEncrypt, exec_encrypt_of_holdsSchedule x hw herr hkey]
  simp [herr, State.observeDout]

/-- One block of the generator on a keyed block: the block stays keyed, and the answer is the self-collision check's (R178
to R182, R184). -/
theorem generateBlock_of_keyedWith {s : State} {w : Schedule} (h : s.KeyedWith w) (g : Generator) :
    ∃ s', s'.KeyedWith w ∧ generateBlock g s =
      if cipher (cipher g.dt w ^^^ g.v) w = g.prevRand then .failed .selfCollision s'
      else .emitted (cipher (cipher g.dt w ^^^ g.v) w)
        { v := cipher (cipher (cipher g.dt w ^^^ g.v) w ^^^ cipher g.dt w) w, dt := g.dt + 1,
          prevRand := cipher (cipher g.dt w ^^^ g.v) w } s' := by
  obtain ⟨s1, h1, hs1⟩ := clientEncrypt_of_keyedWith h g.dt
  obtain ⟨s2, h2, hs2⟩ := clientEncrypt_of_keyedWith hs1 (cipher g.dt w ^^^ g.v)
  obtain ⟨s3, h3, hs3⟩ := clientEncrypt_of_keyedWith hs2 (cipher (cipher g.dt w ^^^ g.v) w ^^^ cipher g.dt w)
  simp only [generateBlock, h1, h2, h3, incrementDtIsSuccessor g.dt]
  split
  · exact ⟨s2, hs2, rfl⟩
  · exact ⟨s3, hs3, rfl⟩

/-- Settles O46: the two answers of one block. -/
theorem generateBlockByCipher : Obligations.GenerateBlockByCipher := by
  intro g s w herr hkey hw
  obtain ⟨s', ⟨hw', hkey', herr'⟩, hanswer⟩ := generateBlock_of_keyedWith ⟨hw, hkey, herr⟩ g
  rw [hanswer]
  split
  · exact ⟨s', rfl⟩
  · exact ⟨s', rfl, hw', hkey', herr'⟩

/-- Any number of blocks leaves a keyed block keyed, whether the call succeeds or fails (R177, R180). -/
theorem generateBlocks_of_keyedWith {w : Schedule} (k : Nat) :
    ∀ (n : Nat) (g : Generator) {s : State}, s.KeyedWith w → ∃ s', s'.KeyedWith w ∧
      ((∃ out g', generateBlocks k n g s = .bytes out (.ready g') s') ∨
        ∃ e written g', generateBlocks k n g s = .failed e written (.spent g') s') := by
  induction k with
  | zero => exact fun n g s h => ⟨s, h, .inl ⟨[], g, rfl⟩⟩
  | succ k ih =>
    intro n g s h
    obtain ⟨s1, hs1, hblock⟩ := generateBlock_of_keyedWith h g
    rw [generateBlocks, hblock]
    split
    · rename_i heq
      split at heq <;> cases heq
      exact ⟨s1, hs1, .inr ⟨_, _, _, rfl⟩⟩
    · rename_i heq
      split at heq <;> cases heq
      obtain ⟨s2, hs2, ⟨out, g2, hout⟩ | ⟨e, written, g2, hfail⟩⟩ := ih (n - 16) _ hs1
      · exact ⟨s2, hs2, .inl ⟨_, g2, by rw [hout, GenerateAnswer.after_bytes]⟩⟩
      · exact ⟨s2, hs2, .inr ⟨e, _, g2, by rw [hfail, GenerateAnswer.after_failed]⟩⟩

/-- A block has sixteen bytes (00_scope.md R7). -/
@[simp] theorem length_blockBytes (b : Block) : (blockBytes b).length = 16 := by
  simp [blockBytes]

/-- Enough blocks yield exactly the bytes wanted (R177, R183). -/
theorem generateBlocks_length {k n : Nat} (hn : n ≤ 16 * k) {g : Generator} {s : State} {out : List Byte} {c : Client}
    {s' : State} (h : generateBlocks k n g s = .bytes out c s') : out.length = n := by
  induction k generalizing n g s out with
  | zero =>
    cases h
    simp only [List.length_nil]
    omega
  | succ k ih =>
    rw [generateBlocks] at h
    split at h
    · cases h
    · rename_i rand g1 s1 _
      obtain ⟨rest, g2, s2, hrest⟩ | ⟨e, written, g2, s2, hfail⟩ := generateBlocks_cases k (n - 16) g1 s1
      · rw [hrest, GenerateAnswer.after_bytes] at h
        cases h
        have hlength : rest.length = n - 16 := ih (by omega) hrest
        rw [List.length_append, List.length_take, length_blockBytes, hlength]
        omega
      · rw [hfail, GenerateAnswer.after_failed] at h
        cases h

theorem generateBlocks_enough (n : Nat) (g : Generator) (s : State) :
    (∃ out g' s', out.length = n ∧ generateBlocks ((n + 15) / 16) n g s = .bytes out (.ready g') s') ∨
    (∃ e written g' s', generateBlocks ((n + 15) / 16) n g s = .failed e written (.spent g') s') := by
  obtain ⟨out, g', s', hout⟩ | hfail := generateBlocks_cases ((n + 15) / 16) n g s
  · exact .inl ⟨out, g', s', generateBlocks_length (by omega) hout, hout⟩
  · exact .inr hfail

/-- What `generate` can answer: the bytes wanted and a ready Generator, a failure that spends it, or no meaning where it
was spent before (R172, R177, R186). -/
theorem generate_cases (n : Nat) (c : Client) (dt : Block) (s : State) :
    (∃ out g s', out.length = n ∧ generate n c dt s = .bytes out (.ready g) s') ∨
    (∃ e written g s', generate n c dt s = .failed e written (.spent g) s') ∨ generate n c dt s = .noMeaning := by
  cases c with
  | fresh =>
    by_cases herr : s.err = true
    · refine .inr (.inl ⟨.blockRefused, [], initialGenerator none dt, s, ?_⟩)
      simp [generate, clientInitialize, exec_of_err _ herr, herr]
    · rw [generate_fresh n dt (Bool.eq_false_iff.2 herr)]
      exact (generateBlocks_enough n _ _).imp_right .inl
  | ready g => exact (generateBlocks_enough n g s).imp_right .inl
  | spent g => exact .inr (.inr rfl)

/-- A successful `generate` returns exactly the bytes wanted and leaves the Generator ready (R177). -/
theorem generate_bytes {n : Nat} {c c' : Client} {dt : Block} {s s' : State} {out : List Byte}
    (h : generate n c dt s = .bytes out c' s') : out.length = n ∧ ∃ g, c' = .ready g := by
  obtain ⟨_, g, _, hlength, hout⟩ | ⟨_, _, _, _, hfail⟩ | hnone := generate_cases n c dt s
  · cases h.symm.trans hout
    exact ⟨hlength, g, rfl⟩
  · cases h.symm.trans hfail
  · cases h.symm.trans hnone

/-- A failed `generate` spends the Generator (R186). -/
theorem generate_failed {n : Nat} {c c' : Client} {dt : Block} {s s' : State} {e : ClientError} {written : List Byte}
    (h : generate n c dt s = .failed e written c' s') : ∃ g, c' = .spent g := by
  obtain ⟨_, _, _, -, hout⟩ | ⟨_, _, g, _, hfail⟩ | hnone := generate_cases n c dt s
  · cases h.symm.trans hout
  · cases h.symm.trans hfail
    exact ⟨g, rfl⟩
  · cases h.symm.trans hnone

/-- Settles O47: `ceil(n/16)` blocks are enough for `n` bytes, and none for none. -/
theorem generateLength : Obligations.GenerateLength :=
  ⟨fun _ _ _ _ _ _ _ h => generate_bytes h, fun _ _ _ => rfl⟩

/-- Settles O48: a failed `generate` leaves a spent Generator, and that has no meaning. -/
theorem failedGeneratorIsNotReused : Obligations.FailedGeneratorIsNotReused := by
  intro n m c c' dt dt' s s' s'' e written h
  obtain ⟨g, rfl⟩ := generate_failed h
  rfl

/-- Settles O49: the first use keys the block with the default key, and the blocks after it keep that key. -/
theorem flagPageFilledOrTerminated : Obligations.FlagPageFilledOrTerminated := by
  refine fun p dt s herr => ⟨?_, rfl⟩
  have hfresh := generate_fresh p.flagPageSize dt herr
  obtain ⟨s', ⟨hw, hkey, herr'⟩, ⟨out, g, hout⟩ | ⟨e, written, g, hfail⟩⟩ := generateBlocks_of_keyedWith
    ((p.flagPageSize + 15) / 16) p.flagPageSize (initialGenerator none dt) (State.kxRun_keyedWith herr defaultKey)
  · have hgenerate := hfresh.trans hout
    obtain ⟨hlength, -⟩ := generate_bytes hgenerate
    refine ⟨s', hw, hkey, herr', .inl ⟨out, g, hlength, ?_⟩⟩
    rw [initializeFlagPage, if_pos rfl, hgenerate]
  · refine ⟨s', hw, hkey, herr', .inr ?_⟩
    rw [initializeFlagPage, if_pos rfl, hfresh.trans hfail]

end Sys2Proof.Machine
end
